-- ==== Sys2Proof/Word.lean ====
section
/-! DEFINITION. The two word types of the block: bytes (00_scope.md section 6) and the 32-bit field patterns of R38 and R99. -/

namespace Sys2Proof

/-- A byte, `u8` of the spec: 8 bits, unsigned. -/
abbrev Byte := BitVec 8

/-- A payload field's bit pattern, 32 bits (R60, R99). -/
abbrev Word32 := BitVec 32

end Sys2Proof
end

