-- ==== Sys2Proof/Config.lean ====
section
/-! DEFINITION. What is fixed for the block: the constants of R10, the capacity of R11, and the catalog instance of R12.
The catalog itself is an argument of the model: State holds it as data (log entry 1). -/

namespace Sys2Proof

/-- One known entry of the catalog ROM: an identifier and its field count (R12, R26). -/
structure CatalogEntry where
  id : Byte
  fieldCount : Nat
  deriving DecidableEq, Repr

/-- `CATALOG` of R12 as data: the known identifiers; every identifier not listed is `none`. -/
abbrev Catalog := List CatalogEntry

/-- `SYNC1` of R10. -/
def Config.sync1 : Byte := 0x24#8
/-- `SYNC2` of R10. -/
def Config.sync2 : Byte := 0x4D#8
/-- `DIR_REQ` of R10, the direction byte the Encoder emits. -/
def Config.dirReq : Byte := 0x3E#8
/-- `LEN_MAX` of R10. -/
def Config.lenMax : Nat := 255
/-- `HDR_LEN` of R10. -/
def Config.hdrLen : Nat := 5
/-- `FRAME_OVERHEAD` of R10. -/
def Config.frameOverhead : Nat := 6
/-- `FRAME_MAX` of R10. -/
def Config.frameMax : Nat := 261
/-- `BUF_CAP` of R11: the array cells have indices 0 to 254. -/
def Config.bufCap : Nat := 255

/-- The catalog instance the spec exercises (R12, R97): 121 has six fields, 122 three.
DESIGN CHOICE (log entry 1): D16 leaves `CATALOG` open and the reset state holds this instance. -/
def Config.testedCatalog : Catalog := [⟨0x79#8, 6⟩, ⟨0x7A#8, 3⟩]

end Sys2Proof
end

