-- ==== Sys2Proof/Syntax.lean ====
section
/-! DEFINITION. The operations of opcode_table.json as one inductive, and the words that select them (30_encoding.md). -/

namespace Sys2Proof

/-- The seven named positions in the frame (R17), in the order of their codes 0 to 6, and code 7, which names no state:
it stands here so that the refusal of R30 and R64 can be stated. -/
inductive SeqState where
  | awaitSync1 | awaitSync2 | awaitDirection | awaitLength | awaitId | awaitPayload | awaitChecksum | unused7
  deriving DecidableEq, Repr

/-- The nineteen operations, one constructor per row of opcode_table.json. A FEED transition carries the byte `b` it
consumes unless its row fixes all of it. The dispatch operations act on the frame event that stands at the stage (R96). -/
inductive Instr where
  /-- D.SYNC1.HIT, R68 -/
  | dSync1Hit
  /-- D.SYNC1.MISS, R69 -/
  | dSync1Miss (b : Byte)
  /-- D.SYNC2.HIT, R70 -/
  | dSync2Hit
  /-- D.SYNC2.MISS, R71 -/
  | dSync2Miss (b : Byte)
  /-- D.DIR, R72 -/
  | dDir (b : Byte)
  /-- D.LEN, R73 -/
  | dLen (b : Byte)
  /-- D.ID.NZ, R74 -/
  | dIdNz (b : Byte)
  /-- D.ID.Z, R75 -/
  | dIdZ (b : Byte)
  /-- D.PAY.MORE, R76 -/
  | dPayMore (b : Byte)
  /-- D.PAY.LAST, R77 -/
  | dPayLast (b : Byte)
  /-- D.CK.OK, R78 -/
  | dCkOk (b : Byte)
  /-- D.CK.BAD, R79 -/
  | dCkBad (b : Byte)
  /-- RESET, R105 -/
  | reset
  /-- IDLE, R106 -/
  | idle
  /-- CHECKSUM, R86 -/
  | checksum (bytes : List Byte)
  /-- SERIALIZE, R90 -/
  | serialize (id : Byte) (payload : List Byte)
  /-- X.121, R102 -/
  | x121
  /-- X.122, R103 -/
  | x122
  /-- X.UNKNOWN, R104, for the identifier it is selected on -/
  | xUnknown (id : Byte)
  deriving DecidableEq, Repr

/-- What the environment can present to the block at one step: a 10-bit command word at the Decoder's ports (R51) or a
SERIALIZE call (R62), and nothing else (R107). CHECKSUM cannot be presented on its own (R86). -/
inductive Presented where
  | command (c : BitVec 10)
  | callSerialize (id : Byte) (payload : List Byte)
  deriving DecidableEq, Repr

/-- What selects an operation: the 11-bit step key of R52, the 8-bit identifier of a delivered frame (R63), what the
environment presents, or, for CHECKSUM, the application of the function inside the block (R86: it has no encoding and no
user presents it; log entry 10). -/
inductive OpWord where
  | stepKey (k : BitVec 11)
  | frameId (id : Byte)
  | presented (p : Presented)
  | applyChecksum (bytes : List Byte)
  deriving DecidableEq, Repr

/-- The three readings of a command word (R51). -/
inductive Command where
  | reset
  | feed (b : Byte)
  | idle
  deriving DecidableEq, Repr

/-- What decoding reads of the Decoder besides the byte: `state` for the step key and the registers of R52's `cond`
column, as they stand before the step. -/
structure KeyRegs where
  state : SeqState
  lengthExpected : Byte
  lengthReceived : Byte
  cksum : Byte
  deriving DecidableEq, Repr

/-- Why a word selects no operation. -/
inductive DecodeError where
  /-- the step key has `state` code 7 (R64 a) -/
  | illegalStepKey (k : BitVec 11)
  deriving DecidableEq, Repr

end Sys2Proof
end

