-- ==== Sys2Proof/WellFormed.lean ====
section
/-! DEFINITION. Which operations are well-formed as syntax: the operand constraints of R52, R62 and R63. -/

namespace Sys2Proof

/-- The operand constraints: a MISS row takes any byte but the awaited one (R52, first match wins), SERIALIZE takes at
most 255 payload bytes (R62), X.UNKNOWN is not selected on 121 or 122 (R63). -/
def Instr.wf : Instr → Bool
  | .dSync1Miss b => b != Config.sync1
  | .dSync2Miss b => b != Config.sync2
  | .serialize _ payload => decide (payload.length ≤ Config.lenMax)
  | .xUnknown id => id != 0x79#8 && id != 0x7A#8
  | .dSync1Hit | .dSync2Hit | .dDir _ | .dLen _ | .dIdNz _ | .dIdZ _ | .dPayMore _ | .dPayLast _ | .dCkOk _
  | .dCkBad _ | .reset | .idle | .checksum _ | .x121 | .x122 => true

end Sys2Proof
end

