-- ==== Sys2Proof/Decode.lean ====
section
/-! DEFINITION. Selecting an operation (30_encoding.md): the state codes of R17, the command word of R51, the step-key
table of R52, the identifier table of R63; then the encoder, and the host's view of opcode_table.json's words. -/

namespace Sys2Proof

/-! ### Codes -/

/-- The 3-bit codes of R17. -/
def SeqState.code : SeqState → BitVec 3
  | .awaitSync1 => 0#3
  | .awaitSync2 => 1#3
  | .awaitDirection => 2#3
  | .awaitLength => 3#3
  | .awaitId => 4#3
  | .awaitPayload => 5#3
  | .awaitChecksum => 6#3
  | .unused7 => 7#3

/-- The position a 3-bit code stands for (R17). -/
def SeqState.ofCode (c : BitVec 3) : SeqState :=
  match c.toNat with
  | 0 => .awaitSync1
  | 1 => .awaitSync2
  | 2 => .awaitDirection
  | 3 => .awaitLength
  | 4 => .awaitId
  | 5 => .awaitPayload
  | 6 => .awaitChecksum
  | _ => .unused7

/-- The step key `{state[2:0], in_byte[7:0]}` (R52). -/
def stepKeyOf (st : SeqState) (b : Byte) : BitVec 11 := st.code ++ b

/-- `key[10:8]`. -/
def keyState (k : BitVec 11) : SeqState := SeqState.ofCode (k.extractLsb' 8 3)

/-- `key[7:0]`. -/
def keyByte (k : BitVec 11) : Byte := k.extractLsb' 0 8

/-- The command word `{rst, in_valid, in_byte}` (R51). -/
def commandWord (rst inValid : Bool) (b : Byte) : BitVec 10 :=
  BitVec.ofBool rst ++ BitVec.ofBool inValid ++ b

/-! ### The register conditions of R52's `cond` column, as they stand before the step -/

/-- `length_expected != 0`. -/
def KeyRegs.hasPayload (r : KeyRegs) : Bool := r.lengthExpected != 0#8

/-- `length_received + 1 == length_expected`, the sum taken in the integers (R89 a, b). -/
def KeyRegs.isLastByte (r : KeyRegs) : Bool := r.lengthReceived.toNat + 1 == r.lengthExpected.toNat

/-- `in_byte == cksum`. -/
def KeyRegs.checksumMatches (r : KeyRegs) (b : Byte) : Bool := b == r.cksum

/-! ### Decoding -/

/-- The three operations of a command word; `rst` comes first (R51, D9). -/
def decodeCommand (c : BitVec 10) : Command :=
  if c.getLsbD 9 then .reset else if c.getLsbD 8 then .feed (c.extractLsb' 0 8) else .idle

/-- One row of R52's table. -/
structure KeyRow where
  pat : BitVec 11
  mask : BitVec 11
  cond : KeyRegs → Byte → Bool
  make : Byte → Instr

/-- R52's table, rows 1 to 12 in its order. -/
def keyRows : List KeyRow :=
  [ ⟨0x024#11, 0x7FF#11, fun _ _ => true, fun _ => .dSync1Hit⟩,
    ⟨0x000#11, 0x700#11, fun _ _ => true, .dSync1Miss⟩,
    ⟨0x14D#11, 0x7FF#11, fun _ _ => true, fun _ => .dSync2Hit⟩,
    ⟨0x100#11, 0x700#11, fun _ _ => true, .dSync2Miss⟩,
    ⟨0x200#11, 0x700#11, fun _ _ => true, .dDir⟩,
    ⟨0x300#11, 0x700#11, fun _ _ => true, .dLen⟩,
    ⟨0x400#11, 0x700#11, fun r _ => r.hasPayload, .dIdNz⟩,
    ⟨0x400#11, 0x700#11, fun r _ => !r.hasPayload, .dIdZ⟩,
    ⟨0x500#11, 0x700#11, fun r _ => !r.isLastByte, .dPayMore⟩,
    ⟨0x500#11, 0x700#11, fun r _ => r.isLastByte, .dPayLast⟩,
    ⟨0x600#11, 0x700#11, fun r b => r.checksumMatches b, .dCkOk⟩,
    ⟨0x600#11, 0x700#11, fun r b => !r.checksumMatches b, .dCkBad⟩ ]

/-- A row applies when `(key & mask) == match` and its condition holds (R52). -/
def KeyRow.applies (row : KeyRow) (r : KeyRegs) (k : BitVec 11) : Bool :=
  k &&& row.mask == row.pat && row.cond r (keyByte k)

/-- Decoding a step key: the first row that applies; row 13 of R52's table, `state` code 7, is illegal (R64 a). -/
def decodeKey (r : KeyRegs) (k : BitVec 11) : Except DecodeError Instr :=
  match keyRows.find? (fun row => row.applies r k) with
  | some row => .ok (row.make (keyByte k))
  | none => .error (.illegalStepKey k)

/-- Decoding the identifier of a delivered frame: R63's table, the tested instance of the catalog. -/
def decodeFrameId (id : Byte) : Instr :=
  if id = 0x79#8 then .x121 else if id = 0x7A#8 then .x122 else .xUnknown id

/-- Decoding what the environment presents: a FEED command word is refined by the step key of the byte fed (R52). -/
def decodePresented (r : KeyRegs) : Presented → Except DecodeError Instr
  | .command c =>
    match decodeCommand c with
    | .reset => .ok .reset
    | .feed b => decodeKey r (stepKeyOf r.state b)
    | .idle => .ok .idle
  | .callSerialize id payload => .ok (.serialize id payload)

/-- Decoding, total on every word. -/
def decode (r : KeyRegs) : OpWord → Except DecodeError Instr
  | .stepKey k => decodeKey r k
  | .frameId id => .ok (decodeFrameId id)
  | .presented p => decodePresented r p
  | .applyChecksum bytes => .ok (.checksum bytes)

/-! ### Encoding -/

/-- The word of an operation, from the same tables. RESET and IDLE ignore the bits their rows leave free (R51); the
encoder sets them to 0. -/
def encode : Instr → OpWord
  | .dSync1Hit => .stepKey (stepKeyOf .awaitSync1 Config.sync1)
  | .dSync1Miss b => .stepKey (stepKeyOf .awaitSync1 b)
  | .dSync2Hit => .stepKey (stepKeyOf .awaitSync2 Config.sync2)
  | .dSync2Miss b => .stepKey (stepKeyOf .awaitSync2 b)
  | .dDir b => .stepKey (stepKeyOf .awaitDirection b)
  | .dLen b => .stepKey (stepKeyOf .awaitLength b)
  | .dIdNz b => .stepKey (stepKeyOf .awaitId b)
  | .dIdZ b => .stepKey (stepKeyOf .awaitId b)
  | .dPayMore b => .stepKey (stepKeyOf .awaitPayload b)
  | .dPayLast b => .stepKey (stepKeyOf .awaitPayload b)
  | .dCkOk b => .stepKey (stepKeyOf .awaitChecksum b)
  | .dCkBad b => .stepKey (stepKeyOf .awaitChecksum b)
  | .reset => .presented (.command (commandWord true false 0#8))
  | .idle => .presented (.command (commandWord false false 0#8))
  | .checksum bytes => .applyChecksum bytes
  | .serialize id payload => .presented (.callSerialize id payload)
  | .x121 => .frameId 0x79#8
  | .x122 => .frameId 0x7A#8
  | .xUnknown id => .frameId id

/-- The register condition under which an operation's word selects it and not the other row of its pair (R52, `cond`). -/
def Instr.cond (r : KeyRegs) : Instr → Bool
  | .dIdNz _ => r.hasPayload
  | .dIdZ _ => !r.hasPayload
  | .dPayMore _ => !r.isLastByte
  | .dPayLast _ => r.isLastByte
  | .dCkOk b => r.checksumMatches b
  | .dCkBad b => !r.checksumMatches b
  | .dSync1Hit | .dSync1Miss _ | .dSync2Hit | .dSync2Miss _ | .dDir _ | .dLen _ | .reset | .idle | .checksum _
  | .serialize _ _ | .x121 | .x122 | .xUnknown _ => true

/-! ### The words of opcode_table.json as numbers (log entry 11) -/

/-- Registers under which the FIRST row of R52 that has a key's match and mask is the one selected, in a well-formed
state: D.ID.NZ, D.PAY.MORE and D.CK.OK for the three keys that leave a choice. -/
def regsForKey (k : BitVec 11) : KeyRegs :=
  match keyState k with
  | .awaitId => ⟨.awaitId, 1#8, 0#8, 1#8⟩
  | .awaitPayload => ⟨.awaitPayload, 2#8, 0#8, 2#8⟩
  | .awaitChecksum => ⟨.awaitChecksum, 0#8, 0#8, keyByte k⟩
  | st => ⟨st, 0#8, 0#8, 0#8⟩

/-- `Except` to `Option`: the answer of a decoder that refuses is `none`. -/
def okOf (e : Except DecodeError Instr) : Option Instr :=
  match e with
  | .ok i => some i
  | .error _ => none

/-- Is `w` the five-byte header of R90's pattern, least significant byte first: 24 4D 3E, length, identifier? -/
def isSerializeHeader (w : Nat) : Bool := w % 0x1000000 == 0x3E4D24 && decide (w < 2 ^ 40)

/-- The operands a SERIALIZE header of R90 names when the payload bytes after it are zeros. -/
def serializeOperands (w : Nat) : Byte × List Byte :=
  (BitVec.ofNat 8 (w / 2 ^ 32), List.replicate (w / 2 ^ 24 % 256) 0#8)

/-- The operation read from a word numbered as opcode_table.json numbers it: 8 bits are the identifier of a delivered
frame, 11 bits (16 in whole bytes) a step key, 10 bits a command word, 40 bits the header of R90's pattern. A FEED command
word alone names no row of the table, since the row depends on `state`. -/
def decodeTableWord (nbits w : Nat) : Option Instr :=
  if nbits = 8 then
    if w < 256 then some (decodeFrameId (BitVec.ofNat 8 w)) else none
  else if nbits = 11 ∨ nbits = 16 then
    if w < 2048 then okOf (decodeKey (regsForKey (BitVec.ofNat 11 w)) (BitVec.ofNat 11 w)) else none
  else if nbits = 10 then
    if w < 1024 then
      match decodeCommand (BitVec.ofNat 10 w) with
      | .reset => some .reset
      | .feed _ => none
      | .idle => some .idle
    else none
  else if nbits = 40 then
    if isSerializeHeader w then some (.serialize (serializeOperands w).1 (serializeOperands w).2) else none
  else none

end Sys2Proof
end

