-- ==== Sys2Proof/Machine/State.lean ====
section
/-! DEFINITION. The machine's state as plain data (10_state.md, 20_memory.md), the reasons a step can stop, and reset. -/

namespace Sys2Proof.Machine

/-- The payload buffer's array cells (R24) as index and byte pairs, indices strictly rising. A cell that is not listed
has never been written; it has no value (R33 "array cells unspecified"; log entry 7). -/
abbrev Memory := List Host.Cell

/-- The frame event of R80 with the value of its port `frame_len`. -/
structure Frame where
  id : Byte
  len : Byte
  payload : List Byte
  deriving DecidableEq, Repr

/-- The dispatch event of R100: the identifier and the field patterns, field 0 first. -/
structure Dispatch where
  id : Byte
  fields : List Word32
  deriving DecidableEq, Repr

/-- The events of a run (R134). -/
inductive Event where
  | frame (f : Frame)
  | dispatch (d : Dispatch)
  deriving DecidableEq, Repr

/-- The four error classes of R109. -/
inductive ErrorClass where
  | syncLoss | cksumMismatch | unknownId | layoutMismatch
  deriving DecidableEq, Repr

/-- The whole state. -/
structure State where
  /-- `state` (R17, R18) -/
  state : SeqState
  /-- `length_expected` (R19) -/
  lengthExpected : Byte
  /-- `length_received` (R20) -/
  lengthReceived : Byte
  /-- `msg_id` (R21) -/
  msgId : Byte
  /-- `cksum` (R22) -/
  cksum : Byte
  /-- the payload buffer's array cells (R24) -/
  mem : Memory
  /-- the payload buffer's write cursor (R24); `buf` is the cells below it -/
  cursor : Nat
  /-- the catalog ROM (R12, R26); no operation writes it -/
  catalog : Catalog
  /-- what the environment presents, first operation first (R35, R51; log entry 4) -/
  input : List Presented
  /-- the frame event of the Decoder's last step (R34, R80; log entry 2) -/
  frameOut : Option Frame
  /-- the dispatch event of the Decoder's last step (R34, R100) -/
  dispatchOut : Option Dispatch
  /-- `diag[2:0]` of the Decoder's last step (R116) -/
  diag : BitVec 3
  /-- the run's events, oldest first (R134; the model's record) -/
  events : List Event
  /-- the model's record of a dispatch fault, never cleared (R122) -/
  dispatchFault : Bool
  /-- the output stream: the last SERIALIZE result (R35, R65) -/
  serialOut : List Byte
  /-- the result of CHECKSUM run as an operation (R86; the model's record, log entries 3, 10; no step writes it) -/
  checksumOut : Byte
  deriving DecidableEq, Repr

/-- Why a step faults. -/
inductive Fault where
  /-- A write to a buffer cell outside indices 0 to 254 (R24, R35). Raised by `State.bufAppend` alone and in no state that
  is well-formed (R24 "255 cells are enough"). Safe. -/
  | noSuchCell (index : Nat)
  deriving DecidableEq, Repr

/-- Why an operation is refused. -/
inductive Refusal where
  /-- `exec`'s answer for an instruction without a meaning; no arm gives it. Safe. -/
  | notModelled (mnemonic : String)
  /-- A Decoder operation on a state that is not well-formed (R30, R121, D21). Raised by `State.decoderStep`. Safe. -/
  | illFormedState
  /-- A transition or dispatch operation in a state that does not select it ("Selected by" of R68 to R79, R102 to R104;
  log entry 5). Raised by `State.decoderStep` and `State.dispatchStep`; no step reaches it. Safe. -/
  | notSelected
  /-- SERIALIZE with more than 255 payload bytes (R92, D15). Raised by `execSerialize`. Safe. -/
  | payloadTooLong
  /-- A FEED in `state` code 7: the step key selects no row (R64 a). Raised by `step`. Safe. -/
  | illegalStepKey (k : BitVec 11)
  deriving DecidableEq, Repr

/-- The outcome of an operation. -/
abbrev Result := Host.Outcome State Fault Refusal

/-- The state after power-on (R33, R129). The registers' values are R33's; the catalog is the tested instance
(log entry 1); the records and the queue are empty (log entries 3, 4). -/
def State.reset : State :=
  { state := .awaitSync1
    lengthExpected := 0#8
    lengthReceived := 0#8
    msgId := 0#8
    cksum := 0#8
    mem := []
    cursor := 0
    catalog := Config.testedCatalog
    input := []
    frameOut := none
    dispatchOut := none
    diag := 0#3
    events := []
    dispatchFault := false
    serialOut := []
    checksumOut := 0#8 }

end Sys2Proof.Machine
end

