-- ==== Sys2Proof/Machine/Flags.lean ====
section
/-! DEFINITION. The block has no flags (R28). What plays their part is computed in the step that uses it: the registers a
selection reads (R52) and the `diag` code of an error class (R109). -/

namespace Sys2Proof.Machine

/-- The `diag` codes of R109. -/
def ErrorClass.code : ErrorClass → BitVec 3
  | .syncLoss => 1#3
  | .cksumMismatch => 2#3
  | .unknownId => 3#3
  | .layoutMismatch => 4#3

/-- What selecting an operation reads of the Decoder (R52). -/
def State.keyRegs (s : State) : KeyRegs := ⟨s.state, s.lengthExpected, s.lengthReceived, s.cksum⟩

end Sys2Proof.Machine
end

