-- ==== Sys2Proof/Machine/Operands.lean ====
section
/-! DEFINITION. The operand forms: the checksum fold (42_checksum.md), the wire frame (R54), the 32-bit fields of a payload
(R60, R99) and the catalog lookup (R97). -/

namespace Sys2Proof.Machine

/-- `XOR(s)` of R85. -/
def xorAll (bytes : List Byte) : Byte := bytes.foldl (· ^^^ ·) 0#8

/-- `CHECKSUM(s)` of R86, the one function Decoder and Encoder share (R87). -/
def checksumOf (bytes : List Byte) : Byte := xorAll bytes

/-- A frame's checksum: over length, identifier and payload (R61, R86). -/
def frameChecksum (len id : Byte) (payload : List Byte) : Byte := checksumOf ([len, id] ++ payload)

/-- The wire frame of R54 with direction byte `d`. -/
def wireFrame (d id : Byte) (payload : List Byte) : List Byte :=
  let len : Byte := BitVec.ofNat 8 payload.length
  [Config.sync1, Config.sync2, d, len, id] ++ payload ++ [frameChecksum len id payload]

/-- `LE32` of 00_scope.md section 6 on four consecutive bytes, lowest offset first (R38). -/
def le32 (b0 b1 b2 b3 : Byte) : Word32 :=
  BitVec.ofNat 32 (b0.toNat + 256 * b1.toNat + 65536 * b2.toNat + 16777216 * b3.toNat)

/-- `fields(p, n)` of R99: `n` fields at offsets 0, 4, 8, …; no value unless the payload is exactly `4 * n` bytes (R101). -/
def cutFields : Nat → List Byte → Option (List Word32)
  | 0, [] => some []
  | n + 1, b0 :: b1 :: b2 :: b3 :: rest => (cutFields n rest).map (le32 b0 b1 b2 b3 :: ·)
  | _, _ => none

/-- The four bytes of a field: byte `k` is bits `8k + 7` to `8k` (R99). -/
def fieldBytes (f : Word32) : List Byte :=
  [f.extractLsb' 0 8, f.extractLsb' 8 8, f.extractLsb' 16 8, f.extractLsb' 24 8]

/-- The inverse of field cutting, the source's `serialize_payload`: the application's, used in statements only (R13, R99). -/
def layFields : List Word32 → List Byte
  | [] => []
  | f :: fs => fieldBytes f ++ layFields fs

/-- `CatalogRead(id)` of R97: the field count of the entry for `id`, if there is one. -/
def fieldCountOf : Catalog → Byte → Option Nat
  | [], _ => none
  | e :: rest, id => if e.id = id then some e.fieldCount else fieldCountOf rest id

/-- The catalog data's canonical form: identifiers strictly rising, so that an identifier has at most one entry. -/
def catalogWfFrom : Nat → Catalog → Bool
  | _, [] => true
  | lo, e :: rest => decide (lo ≤ e.id.toNat) && catalogWfFrom (e.id.toNat + 1) rest

/-- See `catalogWfFrom`. -/
def catalogWf (c : Catalog) : Bool := catalogWfFrom 0 c

end Sys2Proof.Machine
end

