-- ==== Sys2Proof/Machine/Ops.lean ====
section
/-! DEFINITION. The operations over the buffer cells and the registers that the meanings share: the memory primitives of
00_scope.md section 6, well-formedness (R30), the outputs of a step (R34), raising an error class (R109, R119), the
dispatch stage (R96 to R101), and taking the next presented operation (R45). -/

namespace Sys2Proof.Machine

/-! ### Buffer cells -/

/-- What a cell that is not listed reads as: no value (R33, H4; log entry 7). -/
def Memory.unlisted : Option Byte := none

/-- The value of cell `k`. -/
def Memory.read : Memory → Nat → Option Byte
  | [], _ => Memory.unlisted
  | c :: m, k => if c.1 = k then some c.2 else Memory.read m k

/-- Cell `k` set to `b`, the list kept in rising order. -/
def Memory.put : Memory → Nat → Byte → Memory
  | [], k, b => [(k, b)]
  | c :: m, k, b =>
    if k < c.1 then (k, b) :: c :: m else if c.1 = k then (k, b) :: m else c :: Memory.put m k b

/-- A write to cell `k`; there are cells 0 to 254 only (R24, R35). -/
def Memory.write (m : Memory) (k : Nat) (b : Byte) : Option Memory :=
  if k < Config.bufCap then some (Memory.put m k b) else none

/-- The canonical form from index `lo` on: indices strictly rising and inside the array. -/
def Memory.wfFrom : Nat → Memory → Bool
  | _, [] => true
  | lo, c :: m => decide (lo ≤ c.1) && decide (c.1 < Config.bufCap) && Memory.wfFrom (c.1 + 1) m

/-- The canonical form of the cells. -/
def Memory.wf (m : Memory) : Bool := Memory.wfFrom 0 m

/-- Cells 0 to `n - 1` in order, if each has a value. -/
def Memory.readSeq (m : Memory) : Nat → Option (List Byte)
  | 0 => some []
  | n + 1 =>
    match Memory.readSeq m n, Memory.read m n with
    | some l, some b => some (l ++ [b])
    | _, _ => none

/-- The abstract `buf`: the cells below the cursor (R24). -/
def State.buf? (s : State) : Option (List Byte) := s.mem.readSeq s.cursor

/-! ### Well-formed states -/

/-- The clause of R30's table for the current `state`, `buf` being the buffer's contents. -/
def State.clauseHolds (s : State) (buf : List Byte) : Bool :=
  match s.state with
  | .awaitSync1 | .awaitSync2 | .awaitDirection | .awaitLength => true
  | .awaitId => s.lengthReceived == 0#8 && s.cksum == s.lengthExpected
  | .awaitPayload =>
    decide (1 ≤ s.lengthExpected.toNat) && decide (s.lengthReceived.toNat < s.lengthExpected.toNat)
      && buf.length == s.lengthReceived.toNat && s.cksum == s.lengthExpected ^^^ s.msgId ^^^ xorAll buf
  | .awaitChecksum =>
    s.lengthReceived == s.lengthExpected && buf.length == s.lengthExpected.toNat
      && s.cksum == s.lengthExpected ^^^ s.msgId ^^^ xorAll buf
  | .unused7 => false

/-- A well-formed Decoder state (R30): at most 255 buffer bytes, each of them written, and the clause for `state`. -/
def State.wf (s : State) : Bool :=
  decide (s.cursor ≤ Config.bufCap) &&
    match s.buf? with
    | some buf => s.clauseHolds buf
    | none => false

/-! ### Registers and outputs -/

/-- `state <- st`. -/
def State.goto (st : SeqState) (s : State) : State := { s with state := st }

/-- A Decoder step's outputs before anything is emitted or raised: none, none, 0 (R34). -/
def State.clearOutputs (s : State) : State := { s with frameOut := none, dispatchOut := none, diag := 0#3 }

/-- `diag` of a step before anything is raised: 0, whatever an earlier step left standing (R116). -/
def State.clearDiag (s : State) : State := { s with diag := 0#3 }

/-- `raise E`, this hardware's taking of an exception: `diag` becomes the class's code and nothing else happens; no cause,
no saved state, no handler (00_scope.md section 6, R109, R119). There is no return (R120). -/
def State.raise (e : ErrorClass) (s : State) : State := { s with diag := e.code }

/-- `emit Frame` (R80): the step's frame output and the run's record (R134). -/
def State.emitFrame (f : Frame) (s : State) : State :=
  { s with frameOut := some f, events := s.events ++ [.frame f] }

/-- `emit Dispatch` (R100). -/
def State.emitDispatch (d : Dispatch) (s : State) : State :=
  { s with dispatchOut := some d, events := s.events ++ [.dispatch d] }

/-- The model's record that a dispatch fault happened (R101, R122). -/
def State.recordDispatchFault (s : State) : State := { s with dispatchFault := true }

/-- `BufClear()`: the cursor goes to 0, the cells stay (R24). -/
def State.bufClear (s : State) : State := { s with cursor := 0 }

/-- The register writes of D.LEN (R73). -/
def State.startFrame (b : Byte) (s : State) : State :=
  { s with lengthExpected := b, cksum := b, lengthReceived := 0#8 }

/-- The writes shared by D.ID.NZ and D.ID.Z (R74, R75). -/
def State.takeId (b : Byte) (s : State) : State :=
  ({ s with msgId := b, cksum := s.cksum ^^^ b } : State).bufClear

/-- The register writes shared by D.PAY.MORE and D.PAY.LAST (R76, R77). -/
def State.countByte (b : Byte) (s : State) : State :=
  { s with cksum := s.cksum ^^^ b, lengthReceived := s.lengthReceived + 1#8 }

/-- `BufAppend(b)`: the cell at the cursor is written and the cursor moves up (R24); then `k` goes on. -/
def State.bufAppend (b : Byte) (s : State) (k : State → Result) : Result :=
  match s.mem.write s.cursor b with
  | some m => k { s with mem := m, cursor := s.cursor + 1 }
  | none => .fault (.noSuchCell s.cursor)

/-- The register writes of RESET (R105). -/
def State.resetRegs (s : State) : State :=
  ({ s with state := .awaitSync1, lengthExpected := 0#8, lengthReceived := 0#8, msgId := 0#8, cksum := 0#8 }
    : State).bufClear

/-! ### One Decoder operation -/

/-- A Decoder operation: refused on a state that is not well-formed (R30, R121) and where it is not selected
(log entry 5); otherwise its effect on the state with the outputs cleared (R34). -/
def State.decoderStep (s : State) (selected : Bool) (effect : State → Result) : Result :=
  if s.wf then
    if selected then effect s.clearOutputs else .refused .notSelected
  else .refused .illFormedState

/-! ### The dispatch stage -/

/-- An identifier with `n` fields: the dispatch event, or a layout mismatch when the payload is not `4 * n` bytes
(R99 to R101). -/
def State.deliverFields (n : Nat) (f : Frame) (s : State) : State :=
  match cutFields n f.payload with
  | some fields => s.emitDispatch ⟨f.id, fields⟩
  | none => (s.raise .layoutMismatch).recordDispatchFault

/-- The dispatch stage on a frame event, for any catalog (R96, R97, R104). -/
def State.dispatchFrame (f : Frame) (s : State) : State :=
  match fieldCountOf s.catalog f.id with
  | some n => s.deliverFields n f
  | none => s.raise .unknownId

/-- The frame event that stands at the stage and has no dispatch event yet (R96, R98). `diag` is not looked at (R116). -/
def State.stageFrame? (s : State) : Option Frame :=
  if s.dispatchOut = none then s.frameOut else none

/-- One operation of the dispatch stage on the frame event that stands there, refused where it is not selected (R63, R96;
log entry 9); `diag` is the operation's own, 0 unless it raises (R102 to R104, R116). DESIGN CHOICE (log entry 6): it runs whether or not the Decoder's record is well-formed. R30 and R121 refuse
"any operation" on an ill-formed Decoder state; the stage reads the frame event "and nothing else of the Decoder"
(44_catalog_dispatch.md), and the model takes it for no operation on the Decoder state. -/
def State.dispatchStep (s : State) (selected : Frame → Bool) (effect : Frame → State → State) : Result :=
  match s.stageFrame? with
  | some f => if selected f then .next (effect f s.clearDiag) else .refused .notSelected
  | none => .refused .notSelected

/-- The frame event of D.CK.OK, `buf` being the buffer's contents (R80: `frame_len = length_expected`). -/
def State.closingFrame (buf : List Byte) (s : State) : Frame := ⟨s.msgId, s.lengthExpected, buf⟩

/-- D.CK.OK's one register write and its frame event (R78). -/
def State.closeFrame (f : Frame) (s : State) : State := (s.goto .awaitSync1).emitFrame f

/-! ### Ports -/

/-- `frame_valid` of R80. -/
def State.frameValid (s : State) : Bool := s.frameOut.isSome

/-- What `feed` returns (R100): the source's "optional DecodedMessage". -/
def State.decodedMessage (s : State) : Option Dispatch := s.dispatchOut

/-! ### Presented operations -/

/-- FEED `b` as the environment presents it (R51). -/
def feedCommand (b : Byte) : Presented := .command (commandWord false true b)

/-- RESET as presented (R51). -/
def resetCommand : Presented := .command (commandWord true false 0#8)

/-- IDLE as presented (R51). -/
def idleCommand : Presented := .command (commandWord false false 0#8)

/-- The operation the next step runs: the first presented one, or IDLE when nothing is presented (R106; log entry 4). -/
def State.nextPresented (s : State) : Presented :=
  match s.input with
  | p :: _ => p
  | [] => idleCommand

/-- The presented operation is taken: a byte is presented to exactly one step (R43). -/
def State.consume (s : State) : State := { s with input := s.input.tail }

/-- The environment presents `p` before everything that waits. -/
def State.present (p : Presented) (s : State) : State := { s with input := p :: s.input }

/-! ### Placing a word of opcode_table.json where the next step takes it (log entry 11) -/

/-- A step key: `state` and the registers `regsForKey` names where the position reads registers, and the byte presented. -/
def State.placeKey (k : BitVec 11) (s : State) : State :=
  let r := regsForKey k
  let b := keyByte k
  let s := s.present (feedCommand b)
  match r.state with
  | .awaitId =>
    { s with state := r.state, lengthExpected := r.lengthExpected, lengthReceived := r.lengthReceived, cksum := r.cksum }
  | .awaitPayload =>
    { s with state := r.state, lengthExpected := r.lengthExpected, lengthReceived := r.lengthReceived, cksum := r.cksum,
             msgId := 0#8, cursor := 0 }
  | .awaitChecksum =>
    { s with state := r.state, lengthExpected := r.lengthExpected, lengthReceived := r.lengthReceived, cksum := r.cksum,
             msgId := b, cursor := 0 }
  | .awaitSync1 | .awaitSync2 | .awaitDirection | .awaitLength | .unused7 => { s with state := r.state }

/-- The identifier of a delivered frame: a frame that closes at the next step, with a payload of zeros of the length the
tested catalog gives the identifier (none for an unknown one), and that catalog. -/
def State.placeFrameId (id : Byte) (s : State) : State :=
  let len := 4 * (fieldCountOf Config.testedCatalog id).getD 0
  let ck : Byte := BitVec.ofNat 8 len ^^^ id
  { s.present (feedCommand ck) with
    state := .awaitChecksum, lengthExpected := BitVec.ofNat 8 len, lengthReceived := BitVec.ofNat 8 len, msgId := id
    cksum := ck, mem := (List.range len).foldl (fun m k => Memory.put m k 0#8) s.mem, cursor := len
    catalog := Config.testedCatalog }

/-- Any word of the table, by its number of bits (see `decodeTableWord`). -/
def State.placeTableWord (nbits w : Nat) (s : State) : State :=
  if nbits = 8 then s.placeFrameId (BitVec.ofNat 8 w)
  else if nbits = 11 ∨ nbits = 16 then s.placeKey (BitVec.ofNat 11 w)
  else if nbits = 10 then s.present (.command (BitVec.ofNat 10 w))
  else if nbits = 40 then s.present (.callSerialize (serializeOperands w).1 (serializeOperands w).2)
  else s

end Sys2Proof.Machine
end

