-- ==== Sys2Proof/Machine/Catalog.lean ====
section
/-! DEFINITION. The dispatch operations of the tested catalog: X.121, X.122, X.UNKNOWN (44_catalog_dispatch.md section 2).
Each acts on the frame event that stands at the stage; D.CK.OK runs the stage inside its own step (R96, log entry 9). -/

namespace Sys2Proof.Machine

/-- X.121 (R102): six fields. -/
def execX121 (s : State) : Result :=
  s.dispatchStep (fun f => f.id == 0x79#8 && fieldCountOf s.catalog 0x79#8 == some 6) fun f t => t.deliverFields 6 f

/-- X.122 (R103): three fields, roll, pitch, yaw. -/
def execX122 (s : State) : Result :=
  s.dispatchStep (fun f => f.id == 0x7A#8 && fieldCountOf s.catalog 0x7A#8 == some 3) fun f t => t.deliverFields 3 f

/-- X.UNKNOWN (R104): no dispatch event. -/
def execXUnknown (id : Byte) (s : State) : Result :=
  s.dispatchStep (fun f => f.id == id && fieldCountOf s.catalog id == none) fun _ t => t.raise .unknownId

end Sys2Proof.Machine
end

