-- ==== Sys2Proof/Machine/Close.lean ====
section
/-! DEFINITION. Closing the frame: D.CK.OK, D.CK.BAD (41_decoder.md section 5). -/

namespace Sys2Proof.Machine

/-- D.CK.OK (R78): the frame event with a copy of `buf` (R80), then, in the same step, the dispatch stage on it (R96). -/
def execDCkOk (b : Byte) (s : State) : Result :=
  s.decoderStep (s.state == .awaitChecksum && s.keyRegs.checksumMatches b) fun t =>
    match t.buf? with
    | some buf => .next ((t.closeFrame (t.closingFrame buf)).dispatchFrame (t.closingFrame buf))
    | none => .refused .illFormedState

/-- D.CK.BAD (R79): the frame is dropped and the failing byte is not looked at again. -/
def execDCkBad (b : Byte) (s : State) : Result :=
  s.decoderStep (s.state == .awaitChecksum && !s.keyRegs.checksumMatches b) fun t =>
    .next ((t.goto .awaitSync1).raise .cksumMismatch)

end Sys2Proof.Machine
end

