-- ==== Sys2Proof/Machine/Encoder.lean ====
section
/-! DEFINITION. The function CHECKSUM (R86) and the Encoder's SERIALIZE (R90). Neither reads or writes the
Decoder (R27, R93). -/

namespace Sys2Proof.Machine

/-- CHECKSUM (R86) as an operation, its result kept in the model's record; no environment presents it, and the block's
own uses are `checksumOf` in SERIALIZE and the fold in D.LEN to D.CK.BAD (R87; log entry 10). -/
def execChecksum (bytes : List Byte) (s : State) : Result :=
  .next { s with checksumOut := checksumOf bytes }

/-- SERIALIZE (R90): direction 0x3E always (D23); refused beyond 255 payload bytes, never truncated (R92). -/
def execSerialize (id : Byte) (payload : List Byte) (s : State) : Result :=
  if payload.length ≤ Config.lenMax then .next { s with serialOut := wireFrame Config.dirReq id payload }
  else .refused .payloadTooLong

end Sys2Proof.Machine
end

