-- ==== Sys2Proof/Machine/Header.lean ====
section
/-! DEFINITION. The header bytes: D.DIR, D.LEN, D.ID.NZ, D.ID.Z (41_decoder.md section 3). -/

namespace Sys2Proof.Machine

/-- D.DIR (R72): the byte is neither stored nor checksummed (R25). -/
def execDDir (_b : Byte) (s : State) : Result :=
  s.decoderStep (s.state == .awaitDirection) fun t => .next (t.goto .awaitLength)

/-- D.LEN (R73). -/
def execDLen (b : Byte) (s : State) : Result :=
  s.decoderStep (s.state == .awaitLength) fun t => .next ((t.startFrame b).goto .awaitId)

/-- D.ID.NZ (R74). -/
def execDIdNz (b : Byte) (s : State) : Result :=
  s.decoderStep (s.state == .awaitId && s.keyRegs.hasPayload) fun t => .next ((t.takeId b).goto .awaitPayload)

/-- D.ID.Z (R75): one transition that passes over `AwaitPayload` (C9). -/
def execDIdZ (b : Byte) (s : State) : Result :=
  s.decoderStep (s.state == .awaitId && !s.keyRegs.hasPayload) fun t => .next ((t.takeId b).goto .awaitChecksum)

end Sys2Proof.Machine
end

