-- ==== Sys2Proof/Machine/Payload.lean ====
section
/-! DEFINITION. Collecting the payload: D.PAY.MORE, D.PAY.LAST (41_decoder.md section 4). -/

namespace Sys2Proof.Machine

/-- D.PAY.MORE (R76): `state` stays. -/
def execDPayMore (b : Byte) (s : State) : Result :=
  s.decoderStep (s.state == .awaitPayload && !s.keyRegs.isLastByte) fun t =>
    t.bufAppend b fun u => .next (u.countByte b)

/-- D.PAY.LAST (R77). -/
def execDPayLast (b : Byte) (s : State) : Result :=
  s.decoderStep (s.state == .awaitPayload && s.keyRegs.isLastByte) fun t =>
    t.bufAppend b fun u => .next ((u.countByte b).goto .awaitChecksum)

end Sys2Proof.Machine
end

