-- ==== Sys2Proof/Machine/Sync.lean ====
section
/-! DEFINITION. Waiting for the sync pair: D.SYNC1.HIT, D.SYNC1.MISS, D.SYNC2.HIT, D.SYNC2.MISS (41_decoder.md section 2). -/

namespace Sys2Proof.Machine

/-- D.SYNC1.HIT (R68). -/
def execDSync1Hit (s : State) : Result :=
  s.decoderStep (s.state == .awaitSync1) fun t => .next (t.goto .awaitSync2)

/-- D.SYNC1.MISS (R69): nothing but the diagnostic. -/
def execDSync1Miss (b : Byte) (s : State) : Result :=
  s.decoderStep (s.state == .awaitSync1 && b != Config.sync1) fun t => .next (t.raise .syncLoss)

/-- D.SYNC2.HIT (R70). -/
def execDSync2Hit (s : State) : Result :=
  s.decoderStep (s.state == .awaitSync2) fun t => .next (t.goto .awaitDirection)

/-- D.SYNC2.MISS (R71): the failing byte is not looked at again, 0x24 included. -/
def execDSync2Miss (b : Byte) (s : State) : Result :=
  s.decoderStep (s.state == .awaitSync2 && b != Config.sync2) fun t => .next ((t.goto .awaitSync1).raise .syncLoss)

end Sys2Proof.Machine
end

