-- ==== Sys2Proof/Machine/System.lean ====
section
/-! DEFINITION. Control operations: RESET, IDLE (45_system.md). -/

namespace Sys2Proof.Machine

/-- RESET (R105): legal at any point of a frame; the frame in progress is abandoned without an event. The model's record
of a dispatch fault stays (R122). -/
def execReset (s : State) : Result :=
  s.decoderStep true fun t => .next t.resetRegs

/-- IDLE (R106): every component keeps its value. -/
def execIdle (s : State) : Result :=
  s.decoderStep true fun t => .next t

end Sys2Proof.Machine
end

