-- ==== Sys2Proof/Machine/Dispatch.lean ====
section
/-! DEFINITION. One arm per operation of opcode_table.json. -/

namespace Sys2Proof.Machine

def exec (i : Instr) (s : State) : Host.Outcome State Fault Refusal :=
  match i with
  | .dSync1Hit => Sys2Proof.Machine.execDSync1Hit s
  | .dSync1Miss b => Sys2Proof.Machine.execDSync1Miss b s
  | .dSync2Hit => Sys2Proof.Machine.execDSync2Hit s
  | .dSync2Miss b => Sys2Proof.Machine.execDSync2Miss b s
  | .dDir b => Sys2Proof.Machine.execDDir b s
  | .dLen b => Sys2Proof.Machine.execDLen b s
  | .dIdNz b => Sys2Proof.Machine.execDIdNz b s
  | .dIdZ b => Sys2Proof.Machine.execDIdZ b s
  | .dPayMore b => Sys2Proof.Machine.execDPayMore b s
  | .dPayLast b => Sys2Proof.Machine.execDPayLast b s
  | .dCkOk b => Sys2Proof.Machine.execDCkOk b s
  | .dCkBad b => Sys2Proof.Machine.execDCkBad b s
  | .reset => Sys2Proof.Machine.execReset s
  | .idle => Sys2Proof.Machine.execIdle s
  | .checksum bytes => Sys2Proof.Machine.execChecksum bytes s
  | .serialize id payload => Sys2Proof.Machine.execSerialize id payload s
  | .x121 => Sys2Proof.Machine.execX121 s
  | .x122 => Sys2Proof.Machine.execX122 s
  | .xUnknown id => Sys2Proof.Machine.execXUnknown id s

end Sys2Proof.Machine
end

