-- ==== Sys2Proof/Machine/Step.lean ====
section
/-! DEFINITION. One step: the operation presented next is taken, decoded against the registers before the step, and run
(R7, R8, R45). -/

namespace Sys2Proof.Machine

/-- One step of the block. -/
def step (s : State) : Host.Outcome State Fault Refusal :=
  match decodePresented s.keyRegs s.nextPresented with
  | .ok i => exec i s.consume
  | .error (.illegalStepKey k) => .refused (.illegalStepKey k)

/-- The host's word placed where the next step takes its operation (log entry 11). -/
def State.withFetchWord (s : State) (nbits w : Nat) : State := s.placeTableWord nbits w

end Sys2Proof.Machine
end

