-- ==== Sys2Proof/Machine/Script.lean ====
section
/-! DEFINITION. The stimulus script of R65 and the pseudo-operations of R66 as the operations they expand to. EXPECT is not
an operation and has no line here. -/

namespace Sys2Proof.Machine

/-- A script line (R65, R66). -/
inductive ScriptLine where
  | reset
  | feed (b : Byte)
  | idle
  | serialize (id : Byte) (payload : List Byte)
  /-- `FEEDS b0 … bn` -/
  | feeds (bytes : List Byte)
  /-- `REQUEST id` -/
  | request (id : Byte)
  /-- `FEEDS OUT` -/
  | feedsOut
  /-- `FRAME d, id, [p0 … pn]` -/
  | frame (d id : Byte) (payload : List Byte)
  deriving DecidableEq, Repr

/-- One FEED per byte, in order (R66). -/
def feedAll (bytes : List Byte) : List Presented := bytes.map feedCommand

/-- `OUT` after a line: the last SERIALIZE result (R65). A refused SERIALIZE has none and leaves it (R92). -/
def ScriptLine.outAfter (out : List Byte) : ScriptLine → List Byte
  | .serialize id payload => if payload.length ≤ Config.lenMax then wireFrame Config.dirReq id payload else out
  | .request id => wireFrame Config.dirReq id []
  | .reset | .feed _ | .idle | .feeds _ | .feedsOut | .frame _ _ _ => out

/-- The operations a line presents, `out` being `OUT` (R66). DESIGN CHOICE (log entry 17): R66 is silent on FRAME with more
than 255 payload bytes; the line then feeds its bytes with the low eight bits of the count as the length byte, which is no
well-formed frame. -/
def ScriptLine.expand (out : List Byte) : ScriptLine → List Presented
  | .reset => [resetCommand]
  | .feed b => [feedCommand b]
  | .idle => [idleCommand]
  | .serialize id payload => [.callSerialize id payload]
  | .feeds bytes => feedAll bytes
  | .request id => [.callSerialize id []]
  | .feedsOut => feedAll out
  | .frame d id payload => feedAll (wireFrame d id payload)

/-- The operations of a script, top to bottom. -/
def expandScript (out : List Byte) : List ScriptLine → List Presented
  | [] => []
  | line :: rest => line.expand out ++ expandScript (line.outAfter out) rest

/-- A script presented to the block, behind whatever still waits. DESIGN CHOICE (log entry 17): `OUT` at the script's start
is the output stream as it stands when the script is loaded, so that a FEEDS OUT before the script's own first SERIALIZE
does not see a SERIALIZE that still waits in the queue; R65 and R66 are silent on a script loaded behind waiting
operations. -/
def State.loadScript (script : List ScriptLine) (s : State) : State :=
  { s with input := s.input ++ expandScript s.serialOut script }

end Sys2Proof.Machine
end

