-- ==== Sys2Proof/Safety.lean ====
section
/-! DEFINITION. Runs, the invariant every step keeps, and what a safe run is, in the terms the statements use. -/

namespace Sys2Proof.Machine

/-- `n` steps, stopping at the first fault or refusal. -/
def runSteps : Nat → State → Result
  | 0, s => .next s
  | n + 1, s =>
    match step s with
    | .next t => runSteps n t
    | .fault r => .fault r
    | .refused r => .refused r

/-- The outputs that stand agree with one another: `diag` is a code of R109; a frame event's payload has `frame_len`
bytes (R80, R31 a); a dispatch event names the identifier of the frame event of the same step and carries that frame's
fields (R98, R99). -/
def State.outputsOk (s : State) : Bool :=
  decide (s.diag.toNat ≤ 4) &&
    (match s.frameOut with
     | none => s.dispatchOut == none
     | some f =>
       f.payload.length == f.len.toNat &&
         match s.dispatchOut with
         | none => true
         | some d =>
           d.id == f.id &&
             match fieldCountOf s.catalog f.id with
             | some n => cutFields n f.payload == some d.fields
             | none => false)

/-- The invariant: the Decoder state is well-formed (R30), the cells and the catalog are in their canonical forms, and the
outputs agree. -/
def State.Inv (s : State) : Bool := s.wf && s.mem.wf && catalogWf s.catalog && s.outputsOk

/-- A run of `n` steps is safe when it completes and no dispatch fault is recorded (R122). -/
def safeRun (n : Nat) (s : State) : Bool :=
  match runSteps n s with
  | .next t => !t.dispatchFault
  | .fault _ => false
  | .refused _ => false

/-- The Decoder's own components, R15's record, in the two states are equal. -/
def State.sameDecoder (s t : State) : Prop :=
  s.state = t.state ∧ s.lengthExpected = t.lengthExpected ∧ s.lengthReceived = t.lengthReceived ∧ s.msgId = t.msgId
    ∧ s.cksum = t.cksum ∧ s.mem = t.mem ∧ s.cursor = t.cursor

/-- The frame events among a run's events, oldest first. -/
def framesOf : List Event → List Frame
  | [] => []
  | .frame f :: rest => f :: framesOf rest
  | .dispatch _ :: rest => framesOf rest

/-- The two states agree on everything a later output can depend on (R32): all but the stale registers. Position by
position, the registers and the buffer contents that some step reads before writing them are equal. -/
def State.observablyEqual (s t : State) : Prop :=
  s.state = t.state ∧ s.catalog = t.catalog ∧ s.input = t.input ∧ s.frameOut = t.frameOut
    ∧ s.dispatchOut = t.dispatchOut ∧ s.diag = t.diag ∧ s.events = t.events ∧ s.dispatchFault = t.dispatchFault
    ∧ s.serialOut = t.serialOut ∧ s.checksumOut = t.checksumOut
    ∧ match s.state with
      | .awaitSync1 | .awaitSync2 | .awaitDirection | .awaitLength => True
      | .awaitId => s.lengthExpected = t.lengthExpected
      | .awaitPayload | .awaitChecksum | .unused7 =>
        s.lengthExpected = t.lengthExpected ∧ s.lengthReceived = t.lengthReceived ∧ s.msgId = t.msgId
          ∧ s.cksum = t.cksum ∧ s.buf? = t.buf?

end Sys2Proof.Machine

namespace Sys2Proof

/-- The operations presented to a Decoder or refined from its FEED (R51, R52): the rest belong to the Encoder and the
dispatch stage. -/
def Instr.isDecoderOp : Instr → Bool
  | .dSync1Hit | .dSync1Miss _ | .dSync2Hit | .dSync2Miss _ | .dDir _ | .dLen _ | .dIdNz _ | .dIdZ _ | .dPayMore _
  | .dPayLast _ | .dCkOk _ | .dCkBad _ | .reset | .idle => true
  | .checksum _ | .serialize _ _ | .x121 | .x122 | .xUnknown _ => false

/-- The operations a legal environment presents (R135): a SERIALIZE payload has at most 255 bytes. -/
def Presented.legal : Presented → Bool
  | .command _ => true
  | .callSerialize _ payload => decide (payload.length ≤ Config.lenMax)

/-- The two operations that store to the buffer (R23). -/
def Instr.storesByte : Instr → Bool
  | .dPayMore _ | .dPayLast _ => true
  | .dSync1Hit | .dSync1Miss _ | .dSync2Hit | .dSync2Miss _ | .dDir _ | .dLen _ | .dIdNz _ | .dIdZ _ | .dCkOk _
  | .dCkBad _ | .reset | .idle | .checksum _ | .serialize _ _ | .x121 | .x122 | .xUnknown _ => false

/-- The two operations that take the identifier byte (R21). -/
def Instr.takesId : Instr → Bool
  | .dIdNz _ | .dIdZ _ => true
  | .dSync1Hit | .dSync1Miss _ | .dSync2Hit | .dSync2Miss _ | .dDir _ | .dLen _ | .dPayMore _ | .dPayLast _ | .dCkOk _
  | .dCkBad _ | .reset | .idle | .checksum _ | .serialize _ _ | .x121 | .x122 | .xUnknown _ => false

end Sys2Proof

namespace Sys2Proof.Machine

/-- The "Selected by" of an operation as a condition on the state (R52, R63, R68 to R79, R102 to R106), and for SERIALIZE
its operand constraint (R62). -/
def selectedIn (s : State) : Instr → Bool
  | .dSync1Hit => s.state == .awaitSync1
  | .dSync1Miss b => s.state == .awaitSync1 && b != Config.sync1
  | .dSync2Hit => s.state == .awaitSync2
  | .dSync2Miss b => s.state == .awaitSync2 && b != Config.sync2
  | .dDir _ => s.state == .awaitDirection
  | .dLen _ => s.state == .awaitLength
  | .dIdNz _ => s.state == .awaitId && s.lengthExpected != 0#8
  | .dIdZ _ => s.state == .awaitId && s.lengthExpected == 0#8
  | .dPayMore _ => s.state == .awaitPayload && s.lengthReceived.toNat + 1 != s.lengthExpected.toNat
  | .dPayLast _ => s.state == .awaitPayload && s.lengthReceived.toNat + 1 == s.lengthExpected.toNat
  | .dCkOk b => s.state == .awaitChecksum && b == s.cksum
  | .dCkBad b => s.state == .awaitChecksum && b != s.cksum
  | .reset => true
  | .idle => true
  | .checksum _ => true
  | .serialize _ payload => decide (payload.length ≤ Config.lenMax)
  | .x121 =>
    match s.stageFrame? with
    | some f => f.id == 0x79#8 && fieldCountOf s.catalog 0x79#8 == some 6
    | none => false
  | .x122 =>
    match s.stageFrame? with
    | some f => f.id == 0x7A#8 && fieldCountOf s.catalog 0x7A#8 == some 3
    | none => false
  | .xUnknown id =>
    match s.stageFrame? with
    | some f => f.id == id && fieldCountOf s.catalog id == none
    | none => false

/-- `LE32(p, k)` of 00_scope.md section 6, by its formula; for offsets with `k + 3` inside the sequence. -/
def le32At (p : List Byte) (k : Nat) : Word32 :=
  BitVec.ofNat 32 ((p.getD k 0#8).toNat + 256 * (p.getD (k + 1) 0#8).toNat + 65536 * (p.getD (k + 2) 0#8).toNat
    + 16777216 * (p.getD (k + 3) 0#8).toNat)

/-- `fields(p, n)` of R99 by its formula, for a payload of `4 * n` bytes. -/
def fieldsOf (p : List Byte) (n : Nat) : List Word32 := (List.range n).map fun i => le32At p (4 * i)

end Sys2Proof.Machine
end

