-- ==== Sys2Proof/Certificates/Slice0/Obligations.lean ====
section
/-! DEFINITION. The statements for the provers. Each docstring names the rules of spec/ it formalises. A next state written
as a record update says the whole frame of the operation: every field not named keeps its value, every buffer cell
among them. -/

open Sys2Proof Sys2Proof.Machine

/-! ### The twelve transitions: the operation, and the FEED step that selects it -/

/-- R68. That a matching byte advances to the next listed state is the spec's own inference, marked so in R68. -/
def Obligations.Sync1HitAdvancesToSync2 : Prop :=
  ∀ (s : State) (rest : List Presented), s.wf = true → s.state = .awaitSync1 →
    exec .dSync1Hit s = .next { s with state := .awaitSync2, frameOut := none, dispatchOut := none, diag := 0#3 } ∧
    (s.input = feedCommand 0x24#8 :: rest →
      step s = .next { s with input := rest, state := .awaitSync2, frameOut := none, dispatchOut := none, diag := 0#3 })

/-- R69: every byte but 0x24, 0x4D among them. -/
def Obligations.Sync1MissDiscardsTheByte : Prop :=
  ∀ (s : State) (b : Byte) (rest : List Presented), s.wf = true → s.state = .awaitSync1 → b ≠ 0x24#8 →
    exec (.dSync1Miss b) s = .next { s with frameOut := none, dispatchOut := none, diag := 1#3 } ∧
    (s.input = feedCommand b :: rest →
      step s = .next { s with input := rest, frameOut := none, dispatchOut := none, diag := 1#3 })

/-- R70. -/
def Obligations.Sync2HitAdvancesToDirection : Prop :=
  ∀ (s : State) (rest : List Presented), s.wf = true → s.state = .awaitSync2 →
    exec .dSync2Hit s = .next { s with state := .awaitDirection, frameOut := none, dispatchOut := none, diag := 0#3 } ∧
    (s.input = feedCommand 0x4D#8 :: rest →
      step s = .next { s with input := rest, state := .awaitDirection, frameOut := none, dispatchOut := none, diag := 0#3 })

/-- R71: every byte but 0x4D, 0x24 among them, goes back to `AwaitSync1`. -/
def Obligations.Sync2MissRestarts : Prop :=
  ∀ (s : State) (b : Byte) (rest : List Presented), s.wf = true → s.state = .awaitSync2 → b ≠ 0x4D#8 →
    exec (.dSync2Miss b) s = .next { s with state := .awaitSync1, frameOut := none, dispatchOut := none, diag := 1#3 } ∧
    (s.input = feedCommand b :: rest →
      step s = .next { s with input := rest, state := .awaitSync1, frameOut := none, dispatchOut := none, diag := 1#3 })

/-- R72: any byte, neither stored nor checksummed. -/
def Obligations.DirectionByteIsConsumedOnly : Prop :=
  ∀ (s : State) (b : Byte) (rest : List Presented), s.wf = true → s.state = .awaitDirection →
    exec (.dDir b) s = .next { s with state := .awaitLength, frameOut := none, dispatchOut := none, diag := 0#3 } ∧
    (s.input = feedCommand b :: rest →
      step s = .next { s with input := rest, state := .awaitLength, frameOut := none, dispatchOut := none, diag := 0#3 })

/-- R73: `cksum` is overwritten and the buffer is not touched. -/
def Obligations.LengthByteStartsTheChecksum : Prop :=
  ∀ (s : State) (b : Byte) (rest : List Presented), s.wf = true → s.state = .awaitLength →
    exec (.dLen b) s = .next { s with state := .awaitId, lengthExpected := b, cksum := b, lengthReceived := 0#8,
                                      frameOut := none, dispatchOut := none, diag := 0#3 } ∧
    (s.input = feedCommand b :: rest →
      step s = .next { s with input := rest, state := .awaitId, lengthExpected := b, cksum := b, lengthReceived := 0#8,
                              frameOut := none, dispatchOut := none, diag := 0#3 })

/-- R74: afterwards `buf` is empty and `cksum` is `length_expected ^ b`. -/
def Obligations.IdentifierByteWithPayload : Prop :=
  ∀ (s : State) (b : Byte) (rest : List Presented), s.wf = true → s.state = .awaitId → s.lengthExpected ≠ 0#8 →
    let t : State := { s with state := .awaitPayload, msgId := b, cksum := s.cksum ^^^ b, cursor := 0,
                              frameOut := none, dispatchOut := none, diag := 0#3 }
    exec (.dIdNz b) s = .next t ∧ t.buf? = some [] ∧ t.cksum = s.lengthExpected ^^^ b ∧
    (s.input = feedCommand b :: rest → step s = .next { t with input := rest })

/-- R75: one transition to `AwaitChecksum`, and the checksum awaited is the identifier. -/
def Obligations.IdentifierByteWithoutPayload : Prop :=
  ∀ (s : State) (b : Byte) (rest : List Presented), s.wf = true → s.state = .awaitId → s.lengthExpected = 0#8 →
    let t : State := { s with state := .awaitChecksum, msgId := b, cksum := s.cksum ^^^ b, cursor := 0,
                              frameOut := none, dispatchOut := none, diag := 0#3 }
    exec (.dIdZ b) s = .next t ∧ t.buf? = some [] ∧ t.cksum = b ∧
    (s.input = feedCommand b :: rest → step s = .next { t with input := rest })

/-- R76: the byte goes to the cell at the cursor, no other cell changes, and the count does not wrap. -/
def Obligations.PayloadByteIsAppended : Prop :=
  ∀ (s : State) (b : Byte) (buf : List Byte) (rest : List Presented), s.wf = true → s.state = .awaitPayload →
    s.lengthReceived.toNat + 1 ≠ s.lengthExpected.toNat → s.buf? = some buf →
    let t : State := { s with cksum := s.cksum ^^^ b, lengthReceived := s.lengthReceived + 1#8,
                              mem := s.mem.put s.cursor b, cursor := s.cursor + 1,
                              frameOut := none, dispatchOut := none, diag := 0#3 }
    exec (.dPayMore b) s = .next t ∧ t.buf? = some (buf ++ [b]) ∧
    t.lengthReceived.toNat = s.lengthReceived.toNat + 1 ∧
    (∀ k : Nat, k ≠ s.cursor → t.mem.read k = s.mem.read k) ∧
    (s.input = feedCommand b :: rest → step s = .next { t with input := rest })

/-- R77: the same writes; afterwards the buffer holds exactly `length_expected` bytes. -/
def Obligations.LastPayloadByteAwaitsTheChecksum : Prop :=
  ∀ (s : State) (b : Byte) (buf : List Byte) (rest : List Presented), s.wf = true → s.state = .awaitPayload →
    s.lengthReceived.toNat + 1 = s.lengthExpected.toNat → s.buf? = some buf →
    let t : State := { s with state := .awaitChecksum, cksum := s.cksum ^^^ b, lengthReceived := s.lengthReceived + 1#8,
                              mem := s.mem.put s.cursor b, cursor := s.cursor + 1,
                              frameOut := none, dispatchOut := none, diag := 0#3 }
    exec (.dPayLast b) s = .next t ∧ t.buf? = some (buf ++ [b]) ∧ t.lengthReceived = t.lengthExpected ∧
    (buf ++ [b]).length = t.lengthExpected.toNat ∧
    (∀ k : Nat, k ≠ s.cursor → t.mem.read k = s.mem.read k) ∧
    (s.input = feedCommand b :: rest → step s = .next { t with input := rest })

/-- R78 with the dispatch stage of R96 in the same step: an identifier the catalog does not know (R104), a known one with a
matching payload (R99, R100), a known one with another length (R101; the dispatch fault there is the spec's D18). -/
def Obligations.GoodChecksumDeliversTheFrame : Prop :=
  ∀ (s : State) (b : Byte) (buf : List Byte) (rest : List Presented), s.wf = true → s.state = .awaitChecksum →
    b = s.cksum → s.buf? = some buf →
    let f : Frame := ⟨s.msgId, s.lengthExpected, buf⟩
    let t : State := { s with state := .awaitSync1, frameOut := some f, dispatchOut := none, diag := 0#3,
                              events := s.events ++ [.frame f] }
    let t' : State :=
      match fieldCountOf s.catalog s.msgId with
      | none => { t with diag := 3#3 }
      | some n =>
        if buf.length = 4 * n then
          { t with dispatchOut := some ⟨s.msgId, fieldsOf buf n⟩
                   events := s.events ++ [.frame f, .dispatch ⟨s.msgId, fieldsOf buf n⟩] }
        else { t with diag := 4#3, dispatchFault := true }
    exec (.dCkOk b) s = .next t' ∧ buf.length = f.len.toNat ∧
    (s.input = feedCommand b :: rest → step s = .next { t' with input := rest })

/-- R79: no register but `state` is written, and no event is added. -/
def Obligations.BadChecksumDropsTheFrame : Prop :=
  ∀ (s : State) (b : Byte) (rest : List Presented), s.wf = true → s.state = .awaitChecksum → b ≠ s.cksum →
    exec (.dCkBad b) s = .next { s with state := .awaitSync1, frameOut := none, dispatchOut := none, diag := 2#3 } ∧
    (s.input = feedCommand b :: rest →
      step s = .next { s with input := rest, state := .awaitSync1, frameOut := none, dispatchOut := none, diag := 2#3 })

/-! ### Control operations, calls and the dispatch operations -/

/-- R105, whatever `in_valid` and `in_byte` are. The zeros are the spec's choice D8; the cells keep their values (log
entry 7), and so does the record of a dispatch fault (R122). -/
def Obligations.ResetReturnsToTheInitialState : Prop :=
  ∀ (s : State) (inValid : Bool) (b : Byte) (rest : List Presented), s.wf = true →
    let t : State := { s with state := .awaitSync1, lengthExpected := 0#8, lengthReceived := 0#8, msgId := 0#8,
                              cksum := 0#8, cursor := 0, frameOut := none, dispatchOut := none, diag := 0#3 }
    exec .reset s = .next t ∧ t.buf? = some [] ∧
    (s.input = .command (commandWord true inValid b) :: rest → step s = .next { t with input := rest })

/-- R106, whatever `in_byte` is. -/
def Obligations.IdleKeepsEveryComponent : Prop :=
  ∀ (s : State) (b : Byte) (rest : List Presented), s.wf = true →
    exec .idle s = .next { s with frameOut := none, dispatchOut := none, diag := 0#3 } ∧
    (s.input = .command (commandWord false false b) :: rest →
      step s = .next { s with input := rest, frameOut := none, dispatchOut := none, diag := 0#3 })

/-- R85, R86: CHECKSUM is the fold, for every byte sequence; bit `k` of it is the parity of bit `k` of the bytes; a frame's
checksum is `L ^ id ^ XOR(p)`. That `exec` runs it as an operation of its own and leaves the result in `checksumOut` is the
model's choice (log entries 3, 10). -/
def Obligations.ChecksumIsTheXorFold : Prop :=
  (∀ (bytes : List Byte) (s : State), exec (.checksum bytes) s = .next { s with checksumOut := checksumOf bytes }) ∧
  checksumOf [] = 0#8 ∧
  (∀ (bytes : List Byte) (b : Byte), checksumOf (bytes ++ [b]) = checksumOf bytes ^^^ b) ∧
  (∀ (bytes : List Byte) (k : Nat),
    (checksumOf bytes).getLsbD k = decide (bytes.countP (fun b => b.getLsbD k) % 2 = 1)) ∧
  (∀ (len id : Byte) (p : List Byte), checksumOf ([len, id] ++ p) = len ^^^ id ^^^ checksumOf p)

/-- R90: the frame, in the layout of R54. -/
def Obligations.SerializeBuildsTheFrame : Prop :=
  ∀ (s : State) (id : Byte) (p : List Byte) (rest : List Presented), p.length ≤ 255 →
    let len : Byte := BitVec.ofNat 8 p.length
    let out : List Byte := [0x24#8, 0x4D#8, 0x3E#8, len, id] ++ p ++ [checksumOf ([len, id] ++ p)]
    exec (.serialize id p) s = .next { s with serialOut := out } ∧ len.toNat = p.length ∧ out.length = 6 + p.length ∧
    (s.input = .callSerialize id p :: rest → step s = .next { s with input := rest, serialOut := out })

/-- R91: the zero-payload request. -/
def Obligations.ZeroPayloadRequest : Prop :=
  ∀ (s : State) (id : Byte),
    exec (.serialize id []) s = .next { s with serialOut := [0x24#8, 0x4D#8, 0x3E#8, 0x00#8, id, id] }

/-- R92 (the spec's D15): refused, never truncated. -/
def Obligations.OverlongSerializeIsRefused : Prop :=
  ∀ (s : State) (id : Byte) (p : List Byte), 255 < p.length → exec (.serialize id p) s = .refused .payloadTooLong

/-- R102: the operation on a frame event that stands at the stage (log entry 9), six fields, or the layout mismatch of R101
for every other length. -/
def Obligations.Dispatch121CutsSixFields : Prop :=
  ∀ (s : State) (len : Byte) (p : List Byte), s.frameOut = some ⟨0x79#8, len, p⟩ → s.dispatchOut = none →
    fieldCountOf s.catalog 0x79#8 = some 6 →
    (p.length = 24 →
      let d : Dispatch := ⟨0x79#8, [le32At p 0, le32At p 4, le32At p 8, le32At p 12, le32At p 16, le32At p 20]⟩
      exec .x121 s = .next { s with dispatchOut := some d, diag := 0#3, events := s.events ++ [.dispatch d] }) ∧
    (p.length ≠ 24 → exec .x121 s = .next { s with diag := 4#3, dispatchFault := true })

/-- R103: roll, pitch, yaw, or the layout mismatch of R101 (on a frame event that stands at the stage, log entry 9). -/
def Obligations.Dispatch122CutsThreeFields : Prop :=
  ∀ (s : State) (len : Byte) (p : List Byte), s.frameOut = some ⟨0x7A#8, len, p⟩ → s.dispatchOut = none →
    fieldCountOf s.catalog 0x7A#8 = some 3 →
    (p.length = 12 →
      let d : Dispatch := ⟨0x7A#8, [le32At p 0, le32At p 4, le32At p 8]⟩
      exec .x122 s = .next { s with dispatchOut := some d, diag := 0#3, events := s.events ++ [.dispatch d] }) ∧
    (p.length ≠ 12 → exec .x122 s = .next { s with diag := 4#3, dispatchFault := true })

/-- R104: no dispatch event, whatever the payload (on a frame event that stands at the stage, log entry 9). -/
def Obligations.UnknownIdentifierIsDropped : Prop :=
  ∀ (s : State) (id len : Byte) (p : List Byte), s.frameOut = some ⟨id, len, p⟩ → s.dispatchOut = none →
    fieldCountOf s.catalog id = none → exec (.xUnknown id) s = .next { s with diag := 3#3 }

/-- R63, R96: with the tested catalog, D.CK.OK is its own writes followed by the operation the identifier selects. -/
def Obligations.DispatchRunsTheSelectedOperation : Prop :=
  ∀ (s : State) (b : Byte) (buf : List Byte), s.wf = true → s.state = .awaitChecksum → b = s.cksum →
    s.buf? = some buf → s.catalog = Config.testedCatalog →
    let f : Frame := ⟨s.msgId, s.lengthExpected, buf⟩
    exec (.dCkOk b) s = exec (decodeFrameId s.msgId) { s with state := .awaitSync1, frameOut := some f, dispatchOut := none,
                                                              diag := 0#3, events := s.events ++ [.frame f] }

/-- R68 to R79, R102 to R106: where its "Selected by" holds, every operation completes on a well-formed state. Where it does
not, SERIALIZE is refused as too long (R92) and every other operation as not selected (the model's choice, log entry 5). -/
def Obligations.OperationCompletesWhereSelected : Prop :=
  ∀ (i : Instr) (s : State), s.wf = true →
    (selectedIn s i = true → ∃ t, exec i s = .next t) ∧
    (selectedIn s i = false →
      ((∃ id p, i = .serialize id p) → exec i s = .refused .payloadTooLong) ∧
      ((∀ id p, i ≠ .serialize id p) → exec i s = .refused .notSelected))

/-! ### Reset -/

/-- R33: the state after power-on. The register zeros are the spec's D8; catalog, queue and records are the model's (log
entries 1, 3, 4). -/
def Obligations.ResetValues : Prop :=
  State.reset.state = .awaitSync1 ∧ State.reset.lengthExpected = 0#8 ∧ State.reset.lengthReceived = 0#8 ∧
  State.reset.msgId = 0#8 ∧ State.reset.cksum = 0#8 ∧ State.reset.cursor = 0 ∧ State.reset.buf? = some [] ∧
  State.reset.frameOut = none ∧ State.reset.dispatchOut = none ∧ State.reset.diag = 0#3

/-- R31: the invariant holds at reset. -/
def Obligations.ResetMeetsTheInvariant : Prop := State.reset.Inv = true

/-! ### Selecting an operation -/

/-- R7, R52: a step takes what is presented and runs the operation it decodes to; with nothing presented it idles (log
entry 4). -/
def Obligations.StepRunsTheDecodedOperation : Prop :=
  (∀ (s : State) (p : Presented) (rest : List Presented) (i : Instr), s.input = p :: rest →
    decodePresented s.keyRegs p = .ok i → step s = exec i { s with input := rest }) ∧
  (∀ s : State, s.input = [] → step s = exec .idle s)

/-- R52: decoding an encoded well-formed operation gives it back, for every byte and operand, in every register state that
meets its `cond`. -/
def Obligations.DecodeOfEncode : Prop :=
  ∀ (i : Instr) (r : KeyRegs), i.wf = true → i.cond r = true → decode r (encode i) = .ok i

/-- R52, R53: a step key selects an operation exactly when it lies below 0x700; the operation's own word is that key, it is
well-formed and its condition holds. -/
def Obligations.EveryStepKeySelectsOneTransition : Prop :=
  ∀ (r : KeyRegs) (k : BitVec 11),
    (k.toNat < 0x700 → ∃ i, decodeKey r k = .ok i ∧ encode i = .stepKey k ∧ i.wf = true ∧ i.cond r = true ∧
      ∀ j : Instr, j.wf = true → j.cond r = true → encode j = .stepKey k → j = i) ∧
    (0x700 ≤ k.toNat → decodeKey r k = .error (.illegalStepKey k))

/-- R51: every 10-bit command word. -/
def Obligations.CommandWordSelects : Prop :=
  ∀ c : BitVec 10,
    (0x200 ≤ c.toNat → decodeCommand c = .reset) ∧
    (0x100 ≤ c.toNat → c.toNat < 0x200 → decodeCommand c = .feed (BitVec.ofNat 8 (c.toNat - 0x100))) ∧
    (c.toNat < 0x100 → decodeCommand c = .idle)

/-- R51, R52, R63: words written out from the tables. -/
def Obligations.TableWordsDecode : Prop :=
  (∀ r : KeyRegs, decodeKey r 0b00000100100#11 = .ok .dSync1Hit) ∧
  (∀ r : KeyRegs, decodeKey r 0b00101001101#11 = .ok .dSync2Hit) ∧
  (∀ r : KeyRegs, decodeKey r 0b00100100100#11 = .ok (.dSync2Miss 0x24#8)) ∧
  (∀ r : KeyRegs, decodeKey r 0b01100001100#11 = .ok (.dLen 0x0C#8)) ∧
  decodeCommand 0b1000000000#10 = .reset ∧ decodeCommand 0b0000000000#10 = .idle ∧
  decodeFrameId 0b01111001#8 = .x121 ∧ decodeFrameId 0b01111010#8 = .x122 ∧ decodeFrameId 0b00000001#8 = .xUnknown 1#8

/-! ### Invariants and whole-machine rules -/

/-- R31: every operation takes a well-formed state to a well-formed state. -/
def Obligations.OperationsKeepWellFormedness : Prop :=
  ∀ (i : Instr) (s t : State), s.wf = true → exec i s = .next t → t.wf = true

/-- R31 and the canonical forms of cells and catalog and the agreement of the outputs: every step keeps the invariant. -/
def Obligations.StepKeepsTheInvariant : Prop :=
  ∀ s t : State, s.Inv = true → step s = .next t → t.Inv = true

/-- R67, R115: from a well-formed state every operation a legal environment presents completes, and the state is well-formed
again. -/
def Obligations.EveryPresentedOperationCompletes : Prop :=
  ∀ (s : State), s.wf = true → s.nextPresented.legal = true → ∃ t, step s = .next t ∧ t.wf = true

/-- R30, R64 (the spec's D21): on a state that is not well-formed every Decoder operation is refused, and so is every step
that presents a command word. -/
def Obligations.IllFormedStatesAreRefused : Prop :=
  ∀ (s : State), s.wf = false →
    (∀ i : Instr, i.isDecoderOp = true → exec i s = .refused .illFormedState) ∧
    (∀ (c : BitVec 10) (rest : List Presented), s.input = .command c :: rest →
      step s = .refused .illFormedState ∨ ∃ k, s.state = .unused7 ∧ step s = .refused (.illegalStepKey k))

/-- The outcome `fault` is never answered, in any state: its one reason, a write outside cells 0 to 254 (R24; the model's
choice, log entry 13), never arises. The dispatch level's fault on a layout mismatch (R101, R102) is no such outcome: it is
recorded in a next state (log entry 16). -/
def Obligations.NothingFaults : Prop :=
  (∀ (i : Instr) (s : State) (r : Fault), exec i s ≠ .fault r) ∧ (∀ (s : State) (r : Fault), step s ≠ .fault r)

/-- R15, column "written by", for every component and every operation. -/
def Obligations.OnlyTheListedOperationsWrite : Prop :=
  ∀ (i : Instr) (s t : State), exec i s = .next t →
    (i.isDecoderOp = false ∨ i = .idle → t.state = s.state) ∧
    ((∀ b, i ≠ .dLen b) → i ≠ .reset → t.lengthExpected = s.lengthExpected) ∧
    ((∀ b, i ≠ .dLen b) → i.storesByte = false → i ≠ .reset → t.lengthReceived = s.lengthReceived) ∧
    (i.takesId = false → i ≠ .reset → t.msgId = s.msgId) ∧
    ((∀ b, i ≠ .dLen b) → i.takesId = false → i.storesByte = false → i ≠ .reset → t.cksum = s.cksum) ∧
    (i.takesId = false → i.storesByte = false → i ≠ .reset → t.buf? = s.buf?) ∧
    (i.storesByte = false → ∀ k : Nat, t.mem.read k = s.mem.read k) ∧
    (i.storesByte = true → ∀ k : Nat, k ≠ s.cursor → t.mem.read k = s.mem.read k) ∧
    t.catalog = s.catalog ∧ t.input = s.input

/-- R26, R43, R50: a step takes exactly one presented operation, and no step writes the catalog. -/
def Obligations.StepConsumesOneAndKeepsTheCatalog : Prop :=
  ∀ s t : State, step s = .next t → t.input = s.input.tail ∧ t.catalog = s.catalog

/-- R122: the record of a dispatch fault is never cleared, RESET included, and it is set only in a step with `diag = 4`. -/
def Obligations.DispatchFaultStaysRecorded : Prop :=
  ∀ s t : State, step s = .next t →
    (s.dispatchFault = true → t.dispatchFault = true) ∧
    (s.dispatchFault = false → t.dispatchFault = true → t.diag = 4#3)

/-- R80: a Decoder step has a frame event exactly when it feeds the awaited checksum byte, and the event is the identifier,
the length and a copy of `buf`, `length_expected` bytes long. -/
def Obligations.FrameEventExactlyOnGoodChecksum : Prop :=
  ∀ (s t : State) (c : BitVec 10) (rest : List Presented), s.input = .command c :: rest → step s = .next t →
    ((∃ f, t.frameOut = some f) ↔ s.state = .awaitChecksum ∧ decodeCommand c = .feed s.cksum) ∧
    (∀ f, t.frameOut = some f →
      f.id = s.msgId ∧ f.len = s.lengthExpected ∧ s.buf? = some f.payload ∧ f.payload.length = f.len.toNat)

/-- R98, R100: a Decoder step has a dispatch event only with the frame event of the same step, for its identifier, with the
fields in payload order. -/
def Obligations.DispatchOnlyWithItsFrame : Prop :=
  ∀ (s t : State) (c : BitVec 10) (rest : List Presented) (d : Dispatch), s.input = .command c :: rest →
    step s = .next t → t.dispatchOut = some d →
    ∃ f n, t.frameOut = some f ∧ d.id = f.id ∧ fieldCountOf s.catalog f.id = some n ∧ f.payload.length = 4 * n ∧
      d.fields = fieldsOf f.payload n

/-- R109 to R113, R117: the `diag` code of a FEED step, cause by cause; at most one class applies; and the `diag`
that stands from an earlier step influences nothing (R116). -/
def Obligations.DiagNamesTheOneCause : Prop :=
  ∀ (s t : State) (b : Byte) (rest : List Presented), s.input = feedCommand b :: rest → step s = .next t →
    (t.diag = 1#3 ↔ (s.state = .awaitSync1 ∧ b ≠ 0x24#8) ∨ (s.state = .awaitSync2 ∧ b ≠ 0x4D#8)) ∧
    (t.diag = 2#3 ↔ s.state = .awaitChecksum ∧ b ≠ s.cksum) ∧
    (t.diag = 3#3 ↔ s.state = .awaitChecksum ∧ b = s.cksum ∧ fieldCountOf s.catalog s.msgId = none) ∧
    (t.diag = 4#3 ↔ s.state = .awaitChecksum ∧ b = s.cksum ∧
      ∃ n, fieldCountOf s.catalog s.msgId = some n ∧ s.lengthExpected.toNat ≠ 4 * n) ∧
    t.diag.toNat ≤ 4 ∧
    (∀ d : BitVec 3, step { s with diag := d } = .next t)

/-- R115, R119: after a step with an error class the offending byte is consumed, the Decoder is in `AwaitSync1`, its
registers and buffer are unchanged, no dispatch event is added, and a frame event only for the two classes of the dispatch
level. -/
def Obligations.ErrorStepsChangeOnlyState : Prop :=
  ∀ (s t : State) (b : Byte) (rest : List Presented), s.input = feedCommand b :: rest → step s = .next t →
    t.diag ≠ 0#3 →
    t.input = rest ∧ t.state = .awaitSync1 ∧ t.lengthExpected = s.lengthExpected ∧
    t.lengthReceived = s.lengthReceived ∧ t.msgId = s.msgId ∧ t.cksum = s.cksum ∧ t.cursor = s.cursor ∧
    (∀ k : Nat, t.mem.read k = s.mem.read k) ∧
    t.dispatchOut = none ∧
    (t.diag = 1#3 ∨ t.diag = 2#3 → t.events = s.events ∧ t.frameOut = none ∧ t.dispatchFault = s.dispatchFault) ∧
    (t.diag = 3#3 → (∃ f, t.frameOut = some f ∧ t.events = s.events ++ [.frame f]) ∧ t.dispatchFault = s.dispatchFault) ∧
    (t.diag = 4#3 → (∃ f, t.frameOut = some f ∧ t.events = s.events ++ [.frame f]) ∧ t.dispatchFault = true)

/-- R134: the run's record grows by exactly the events of a Decoder step's outputs, frame before dispatch; a call adds
none. -/
def Obligations.EventsAreTheOutputsInOrder : Prop :=
  ∀ s t : State, step s = .next t →
    (∀ (c : BitVec 10) (rest : List Presented), s.input = .command c :: rest →
      t.events = s.events ++ t.frameOut.toList.map .frame ++ t.dispatchOut.toList.map .dispatch) ∧
    (∀ (p : Presented) (rest : List Presented), s.input = p :: rest → (∀ c, p ≠ .command c) → t.events = s.events)

/-- R32: two states that differ only in stale registers and buffer contents make the same step, outputs included, and stay
so related. -/
def Obligations.StaleRegistersAreUnobservable : Prop :=
  ∀ s t s' : State, s.wf = true → t.wf = true → s.observablyEqual t → step s = .next s' →
    ∃ t', step t = .next t' ∧ s'.observablyEqual t'

/-- R46, R106: an IDLE step before a Decoder operation makes no difference to that operation's result. -/
def Obligations.IdleStepsAreInvisible : Prop :=
  ∀ (i : Instr) (s u : State), i.isDecoderOp = true → exec .idle s = .next u → exec i u = exec i s

/-- R48, R93: SERIALIZE and any Decoder operation commute, and SERIALIZE changes no Decoder state. -/
def Obligations.SerializeCommutesWithTheDecoder : Prop :=
  ∀ (i : Instr) (s t u : State) (id : Byte) (p : List Byte), i.isDecoderOp = true → exec i s = .next t →
    exec (.serialize id p) s = .next u →
    u.sameDecoder s ∧ ∃ v, exec (.serialize id p) t = .next v ∧ exec i u = .next v

/-! ### Fields and the checksum -/

/-- R99, R101: field `i` is `LE32(p, 4 * i)`, and no value is made for a payload of another length. -/
def Obligations.FieldsAreLittleEndian : Prop :=
  ∀ (n : Nat) (p : List Byte),
    (p.length = 4 * n → cutFields n p = some (fieldsOf p n)) ∧ (p.length ≠ 4 * n → cutFields n p = none)

/-- R99: cutting fields and laying them out are inverse to each other, bit for bit. -/
def Obligations.FieldsRoundTrip : Prop :=
  (∀ fs : List Word32, cutFields fs.length (layFields fs) = some fs) ∧
  (∀ (n : Nat) (p : List Byte) (fs : List Word32), cutFields n p = some fs → layFields fs = p)

/-- R83, R88 b: flipping bits of the identifier, of one payload byte or of the checksum byte of a frame makes the checksum
byte differ from the accumulator, in exactly those bits. -/
def Obligations.BitFlipsShowInTheChecksum : Prop :=
  ∀ (len id flip : Byte) (p : List Byte),
    frameChecksum len (id ^^^ flip) p = frameChecksum len id p ^^^ flip ∧
    (∀ (k : Nat) (b : Byte), p[k]? = some b →
      frameChecksum len id (p.set k (b ^^^ flip)) = frameChecksum len id p ^^^ flip) ∧
    (flip ≠ 0#8 → frameChecksum len id p ^^^ flip ≠ frameChecksum len id p)

/-- R88 a: the checksum does not depend on the order of the bytes. -/
def Obligations.ChecksumIgnoresOrder : Prop :=
  ∀ l r : List Byte, l.Perm r → checksumOf l = checksumOf r

/-! ### Whole frames, from every well-formed state in `AwaitSync1` -/

/-- R81: a well-formed frame with any direction byte is accepted in `6 + L` steps, with exactly one frame event, on the last
step. -/
def Obligations.WellFormedFrameIsDelivered : Prop :=
  ∀ (s : State) (d id : Byte) (p : List Byte) (rest : List Presented), s.wf = true → s.state = .awaitSync1 →
    p.length ≤ 255 → s.input = feedAll (wireFrame d id p) ++ rest →
    ∃ t, runSteps (6 + p.length) s = .next t ∧ t.wf = true ∧ t.state = .awaitSync1 ∧ t.input = rest ∧
      t.frameOut = some ⟨id, BitVec.ofNat 8 p.length, p⟩ ∧
      framesOf t.events = framesOf s.events ++ [⟨id, BitVec.ofNat 8 p.length, p⟩]

/-- R95: what SERIALIZE makes, fed to a Decoder in `AwaitSync1`, delivers exactly its operands. -/
def Obligations.EncoderAndDecoderAgree : Prop :=
  ∀ (s u : State) (id : Byte) (p : List Byte) (rest : List Presented), s.wf = true → s.state = .awaitSync1 →
    exec (.serialize id p) s = .next u →
    ∃ t, runSteps u.serialOut.length { u with input := feedAll u.serialOut ++ rest } = .next t ∧
      t.state = .awaitSync1 ∧ t.input = rest ∧ t.frameOut = some ⟨id, BitVec.ofNat 8 p.length, p⟩ ∧
      framesOf t.events = framesOf s.events ++ [⟨id, BitVec.ofNat 8 p.length, p⟩]

/-- R82: noise without 0x24 leaves a Decoder in `AwaitSync1` where it was, registers and events included. -/
def Obligations.NoiseWithoutSyncByteIsDiscarded : Prop :=
  ∀ (s : State) (noise : List Byte) (rest : List Presented), s.wf = true → s.state = .awaitSync1 →
    0x24#8 ∉ noise → s.input = feedAll noise ++ rest →
    ∃ t, runSteps noise.length s = .next t ∧ t.sameDecoder s ∧ t.events = s.events ∧ t.input = rest

/-- R79, R83, R111: a frame with any other checksum byte is dropped without an event, and the Decoder is ready again. -/
def Obligations.DamagedFrameIsDropped : Prop :=
  ∀ (s : State) (d id c : Byte) (p : List Byte) (rest : List Presented), s.wf = true → s.state = .awaitSync1 →
    p.length ≤ 255 → c ≠ frameChecksum (BitVec.ofNat 8 p.length) id p →
    s.input = feedAll ([0x24#8, 0x4D#8, d, BitVec.ofNat 8 p.length, id] ++ p ++ [c]) ++ rest →
    ∃ t, runSteps (6 + p.length) s = .next t ∧ t.state = .awaitSync1 ∧ t.input = rest ∧ t.events = s.events ∧
      t.frameOut = none ∧ t.dispatchOut = none ∧ t.diag = 2#3

/-- R71, R138: `24 24 4D` opens no frame. -/
def Obligations.DoubledSyncByteLosesTheFrame : Prop :=
  ∀ (s : State) (rest : List Presented), s.wf = true → s.state = .awaitSync1 →
    s.input = feedAll [0x24#8, 0x24#8, 0x4D#8] ++ rest →
    runSteps 3 s = .next { s with input := rest, frameOut := none, dispatchOut := none, diag := 1#3 }

/-- R31 c, R84, C10: a frame in progress closes after exactly the bytes that are left, whatever their values: 1 in
`AwaitChecksum`, `1 + length_expected - length_received` in `AwaitPayload`, `length_expected + 2` in `AwaitId`; after fewer
it has not closed. -/
def Obligations.ParkedFrameClosesInBoundedBytes : Prop :=
  ∀ (s : State) (bytes : List Byte) (rest : List Presented), s.wf = true →
    (s.state = .awaitChecksum ∧ bytes.length = 1 ∨
      s.state = .awaitPayload ∧ bytes.length = s.lengthExpected.toNat - s.lengthReceived.toNat + 1 ∨
      s.state = .awaitId ∧ bytes.length = s.lengthExpected.toNat + 2) →
    s.input = feedAll bytes ++ rest →
    (∃ t, runSteps bytes.length s = .next t ∧ t.state = .awaitSync1 ∧ t.input = rest) ∧
    (∀ n : Nat, n < bytes.length → ∃ u, runSteps n s = .next u ∧ u.state ≠ .awaitSync1)

/-- R65, R66: every line of the script notation. FEEDS is one FEED a byte; FEEDS OUT feeds the last SERIALIZE result, which
SERIALIZE and REQUEST set and every other line leaves, whatever lines lie between; FRAME feeds a well-formed frame. -/
def Obligations.ScriptLinesExpand : Prop :=
  (∀ (out bytes : List Byte), ScriptLine.expand out (.feeds bytes) = bytes.map feedCommand) ∧
  (∀ (out : List Byte) (id : Byte), ScriptLine.expand out (.request id) = ScriptLine.expand out (.serialize id []) ∧
    ScriptLine.outAfter out (.request id) = ScriptLine.outAfter out (.serialize id [])) ∧
  (∀ out : List Byte, ScriptLine.expand out .feedsOut = out.map feedCommand) ∧
  (∀ (out : List Byte) (d id : Byte) (p : List Byte), p.length ≤ 255 →
    ScriptLine.expand out (.frame d id p) =
      ([0x24#8, 0x4D#8, d, BitVec.ofNat 8 p.length, id] ++ p ++
        [BitVec.ofNat 8 p.length ^^^ id ^^^ checksumOf p]).map feedCommand) ∧
  (∀ (out : List Byte) (b : Byte), ScriptLine.expand out .reset = [resetCommand] ∧
    ScriptLine.expand out (.feed b) = [feedCommand b] ∧ ScriptLine.expand out .idle = [idleCommand]) ∧
  (∀ (out : List Byte) (id : Byte) (p : List Byte), ScriptLine.expand out (.serialize id p) = [.callSerialize id p]) ∧
  (∀ (out : List Byte) (id : Byte) (p : List Byte), p.length ≤ 255 →
    ScriptLine.outAfter out (.serialize id p) =
      [0x24#8, 0x4D#8, 0x3E#8, BitVec.ofNat 8 p.length, id] ++ p ++ [BitVec.ofNat 8 p.length ^^^ id ^^^ checksumOf p]) ∧
  (∀ (out : List Byte) (line : ScriptLine), (∀ id p, line ≠ .serialize id p) → (∀ id, line ≠ .request id) →
    ScriptLine.outAfter out line = out) ∧
  (∀ (out : List Byte) (before : List ScriptLine) (line : ScriptLine),
    expandScript out (before ++ [line]) =
      expandScript out before ++ ScriptLine.expand (before.foldl ScriptLine.outAfter out) line)

/-- What R65 and R66 leave open and the model chose (log entry 17): a FRAME line with more than 255 payload bytes feeds the
low eight bits of their count as its length byte, and a SERIALIZE line that is refused leaves `OUT`. -/
def Obligations.OverlongScriptLines : Prop :=
  ∀ (out : List Byte) (d id : Byte) (p : List Byte), 255 < p.length →
    (∃ len : Byte, len.toNat = p.length % 256 ∧
      ScriptLine.expand out (.frame d id p) =
        ([0x24#8, 0x4D#8, d, len, id] ++ p ++ [len ^^^ id ^^^ checksumOf p]).map feedCommand) ∧
    ScriptLine.outAfter out (.serialize id p) = out

/-- R65, R66: a script presented to the block runs to the `OUT` its lines name: if all of the script's operations complete,
the output stream then holds it. -/
def Obligations.ScriptLeavesItsOut : Prop :=
  ∀ (s t : State) (script : List ScriptLine), s.input = expandScript s.serialOut script →
    runSteps (expandScript s.serialOut script).length s = .next t →
    t.input = [] ∧ t.serialOut = script.foldl ScriptLine.outAfter s.serialOut

/-- R107: what is presented selects an operation of the Decoder, RESET, FEED (refined into a transition) or IDLE, or the
Encoder's SERIALIZE, and no other: never CHECKSUM (R86) and never a dispatch operation. -/
def Obligations.OnlyTheListedOperationsArePresented : Prop :=
  ∀ (r : KeyRegs) (p : Presented) (i : Instr), decodePresented r p = .ok i →
    (∃ id payload, p = .callSerialize id payload ∧ i = .serialize id payload) ∨
    (∃ c, p = .command c ∧
      (decodeCommand c = .reset ∧ i = .reset ∨ decodeCommand c = .idle ∧ i = .idle ∨
        ∃ b, decodeCommand c = .feed b ∧ i.isDecoderOp = true ∧ i ≠ .reset ∧ i ≠ .idle ∧
          encode i = .stepKey (stepKeyOf r.state b)))
end

