-- ==== Sys2Proof/Laws/State.lean ====
section
/-! SUPPORT. One lemma per field of State per shared update of Machine/Ops.lean, each true by rfl, so that no later proof
unfolds a record update; then what the updates leave of `buf?` and of well-formedness. -/

namespace Sys2Proof.Machine

variable (s : State)

/-! ### goto -/

@[simp] theorem State.goto_state (st : SeqState) : (s.goto st).state = st := rfl
@[simp] theorem State.goto_lengthExpected (st : SeqState) : (s.goto st).lengthExpected = s.lengthExpected := rfl
@[simp] theorem State.goto_lengthReceived (st : SeqState) : (s.goto st).lengthReceived = s.lengthReceived := rfl
@[simp] theorem State.goto_msgId (st : SeqState) : (s.goto st).msgId = s.msgId := rfl
@[simp] theorem State.goto_cksum (st : SeqState) : (s.goto st).cksum = s.cksum := rfl
@[simp] theorem State.goto_mem (st : SeqState) : (s.goto st).mem = s.mem := rfl
@[simp] theorem State.goto_cursor (st : SeqState) : (s.goto st).cursor = s.cursor := rfl
@[simp] theorem State.goto_catalog (st : SeqState) : (s.goto st).catalog = s.catalog := rfl
@[simp] theorem State.goto_input (st : SeqState) : (s.goto st).input = s.input := rfl
@[simp] theorem State.goto_frameOut (st : SeqState) : (s.goto st).frameOut = s.frameOut := rfl
@[simp] theorem State.goto_dispatchOut (st : SeqState) : (s.goto st).dispatchOut = s.dispatchOut := rfl
@[simp] theorem State.goto_diag (st : SeqState) : (s.goto st).diag = s.diag := rfl
@[simp] theorem State.goto_events (st : SeqState) : (s.goto st).events = s.events := rfl
@[simp] theorem State.goto_dispatchFault (st : SeqState) : (s.goto st).dispatchFault = s.dispatchFault := rfl
@[simp] theorem State.goto_serialOut (st : SeqState) : (s.goto st).serialOut = s.serialOut := rfl
@[simp] theorem State.goto_checksumOut (st : SeqState) : (s.goto st).checksumOut = s.checksumOut := rfl

/-! ### clearOutputs -/

@[simp] theorem State.clearOutputs_state : (s.clearOutputs).state = s.state := rfl
@[simp] theorem State.clearOutputs_lengthExpected : (s.clearOutputs).lengthExpected = s.lengthExpected := rfl
@[simp] theorem State.clearOutputs_lengthReceived : (s.clearOutputs).lengthReceived = s.lengthReceived := rfl
@[simp] theorem State.clearOutputs_msgId : (s.clearOutputs).msgId = s.msgId := rfl
@[simp] theorem State.clearOutputs_cksum : (s.clearOutputs).cksum = s.cksum := rfl
@[simp] theorem State.clearOutputs_mem : (s.clearOutputs).mem = s.mem := rfl
@[simp] theorem State.clearOutputs_cursor : (s.clearOutputs).cursor = s.cursor := rfl
@[simp] theorem State.clearOutputs_catalog : (s.clearOutputs).catalog = s.catalog := rfl
@[simp] theorem State.clearOutputs_input : (s.clearOutputs).input = s.input := rfl
@[simp] theorem State.clearOutputs_frameOut : (s.clearOutputs).frameOut = none := rfl
@[simp] theorem State.clearOutputs_dispatchOut : (s.clearOutputs).dispatchOut = none := rfl
@[simp] theorem State.clearOutputs_diag : (s.clearOutputs).diag = 0#3 := rfl
@[simp] theorem State.clearOutputs_events : (s.clearOutputs).events = s.events := rfl
@[simp] theorem State.clearOutputs_dispatchFault : (s.clearOutputs).dispatchFault = s.dispatchFault := rfl
@[simp] theorem State.clearOutputs_serialOut : (s.clearOutputs).serialOut = s.serialOut := rfl
@[simp] theorem State.clearOutputs_checksumOut : (s.clearOutputs).checksumOut = s.checksumOut := rfl

/-! ### clearDiag -/

@[simp] theorem State.clearDiag_state : (s.clearDiag).state = s.state := rfl
@[simp] theorem State.clearDiag_lengthExpected : (s.clearDiag).lengthExpected = s.lengthExpected := rfl
@[simp] theorem State.clearDiag_lengthReceived : (s.clearDiag).lengthReceived = s.lengthReceived := rfl
@[simp] theorem State.clearDiag_msgId : (s.clearDiag).msgId = s.msgId := rfl
@[simp] theorem State.clearDiag_cksum : (s.clearDiag).cksum = s.cksum := rfl
@[simp] theorem State.clearDiag_mem : (s.clearDiag).mem = s.mem := rfl
@[simp] theorem State.clearDiag_cursor : (s.clearDiag).cursor = s.cursor := rfl
@[simp] theorem State.clearDiag_catalog : (s.clearDiag).catalog = s.catalog := rfl
@[simp] theorem State.clearDiag_input : (s.clearDiag).input = s.input := rfl
@[simp] theorem State.clearDiag_frameOut : (s.clearDiag).frameOut = s.frameOut := rfl
@[simp] theorem State.clearDiag_dispatchOut : (s.clearDiag).dispatchOut = s.dispatchOut := rfl
@[simp] theorem State.clearDiag_diag : (s.clearDiag).diag = 0#3 := rfl
@[simp] theorem State.clearDiag_events : (s.clearDiag).events = s.events := rfl
@[simp] theorem State.clearDiag_dispatchFault : (s.clearDiag).dispatchFault = s.dispatchFault := rfl
@[simp] theorem State.clearDiag_serialOut : (s.clearDiag).serialOut = s.serialOut := rfl
@[simp] theorem State.clearDiag_checksumOut : (s.clearDiag).checksumOut = s.checksumOut := rfl

/-! ### raise -/

@[simp] theorem State.raise_state (e : ErrorClass) : (s.raise e).state = s.state := rfl
@[simp] theorem State.raise_lengthExpected (e : ErrorClass) : (s.raise e).lengthExpected = s.lengthExpected := rfl
@[simp] theorem State.raise_lengthReceived (e : ErrorClass) : (s.raise e).lengthReceived = s.lengthReceived := rfl
@[simp] theorem State.raise_msgId (e : ErrorClass) : (s.raise e).msgId = s.msgId := rfl
@[simp] theorem State.raise_cksum (e : ErrorClass) : (s.raise e).cksum = s.cksum := rfl
@[simp] theorem State.raise_mem (e : ErrorClass) : (s.raise e).mem = s.mem := rfl
@[simp] theorem State.raise_cursor (e : ErrorClass) : (s.raise e).cursor = s.cursor := rfl
@[simp] theorem State.raise_catalog (e : ErrorClass) : (s.raise e).catalog = s.catalog := rfl
@[simp] theorem State.raise_input (e : ErrorClass) : (s.raise e).input = s.input := rfl
@[simp] theorem State.raise_frameOut (e : ErrorClass) : (s.raise e).frameOut = s.frameOut := rfl
@[simp] theorem State.raise_dispatchOut (e : ErrorClass) : (s.raise e).dispatchOut = s.dispatchOut := rfl
@[simp] theorem State.raise_diag (e : ErrorClass) : (s.raise e).diag = e.code := rfl
@[simp] theorem State.raise_events (e : ErrorClass) : (s.raise e).events = s.events := rfl
@[simp] theorem State.raise_dispatchFault (e : ErrorClass) : (s.raise e).dispatchFault = s.dispatchFault := rfl
@[simp] theorem State.raise_serialOut (e : ErrorClass) : (s.raise e).serialOut = s.serialOut := rfl
@[simp] theorem State.raise_checksumOut (e : ErrorClass) : (s.raise e).checksumOut = s.checksumOut := rfl

/-! ### emitFrame -/

@[simp] theorem State.emitFrame_state (f : Frame) : (s.emitFrame f).state = s.state := rfl
@[simp] theorem State.emitFrame_lengthExpected (f : Frame) : (s.emitFrame f).lengthExpected = s.lengthExpected := rfl
@[simp] theorem State.emitFrame_lengthReceived (f : Frame) : (s.emitFrame f).lengthReceived = s.lengthReceived := rfl
@[simp] theorem State.emitFrame_msgId (f : Frame) : (s.emitFrame f).msgId = s.msgId := rfl
@[simp] theorem State.emitFrame_cksum (f : Frame) : (s.emitFrame f).cksum = s.cksum := rfl
@[simp] theorem State.emitFrame_mem (f : Frame) : (s.emitFrame f).mem = s.mem := rfl
@[simp] theorem State.emitFrame_cursor (f : Frame) : (s.emitFrame f).cursor = s.cursor := rfl
@[simp] theorem State.emitFrame_catalog (f : Frame) : (s.emitFrame f).catalog = s.catalog := rfl
@[simp] theorem State.emitFrame_input (f : Frame) : (s.emitFrame f).input = s.input := rfl
@[simp] theorem State.emitFrame_frameOut (f : Frame) : (s.emitFrame f).frameOut = some f := rfl
@[simp] theorem State.emitFrame_dispatchOut (f : Frame) : (s.emitFrame f).dispatchOut = s.dispatchOut := rfl
@[simp] theorem State.emitFrame_diag (f : Frame) : (s.emitFrame f).diag = s.diag := rfl
@[simp] theorem State.emitFrame_events (f : Frame) : (s.emitFrame f).events = s.events ++ [.frame f] := rfl
@[simp] theorem State.emitFrame_dispatchFault (f : Frame) : (s.emitFrame f).dispatchFault = s.dispatchFault := rfl
@[simp] theorem State.emitFrame_serialOut (f : Frame) : (s.emitFrame f).serialOut = s.serialOut := rfl
@[simp] theorem State.emitFrame_checksumOut (f : Frame) : (s.emitFrame f).checksumOut = s.checksumOut := rfl

/-! ### emitDispatch -/

@[simp] theorem State.emitDispatch_state (d : Dispatch) : (s.emitDispatch d).state = s.state := rfl
@[simp] theorem State.emitDispatch_lengthExpected (d : Dispatch) : (s.emitDispatch d).lengthExpected = s.lengthExpected := rfl
@[simp] theorem State.emitDispatch_lengthReceived (d : Dispatch) : (s.emitDispatch d).lengthReceived = s.lengthReceived := rfl
@[simp] theorem State.emitDispatch_msgId (d : Dispatch) : (s.emitDispatch d).msgId = s.msgId := rfl
@[simp] theorem State.emitDispatch_cksum (d : Dispatch) : (s.emitDispatch d).cksum = s.cksum := rfl
@[simp] theorem State.emitDispatch_mem (d : Dispatch) : (s.emitDispatch d).mem = s.mem := rfl
@[simp] theorem State.emitDispatch_cursor (d : Dispatch) : (s.emitDispatch d).cursor = s.cursor := rfl
@[simp] theorem State.emitDispatch_catalog (d : Dispatch) : (s.emitDispatch d).catalog = s.catalog := rfl
@[simp] theorem State.emitDispatch_input (d : Dispatch) : (s.emitDispatch d).input = s.input := rfl
@[simp] theorem State.emitDispatch_frameOut (d : Dispatch) : (s.emitDispatch d).frameOut = s.frameOut := rfl
@[simp] theorem State.emitDispatch_dispatchOut (d : Dispatch) : (s.emitDispatch d).dispatchOut = some d := rfl
@[simp] theorem State.emitDispatch_diag (d : Dispatch) : (s.emitDispatch d).diag = s.diag := rfl
@[simp] theorem State.emitDispatch_events (d : Dispatch) : (s.emitDispatch d).events = s.events ++ [.dispatch d] := rfl
@[simp] theorem State.emitDispatch_dispatchFault (d : Dispatch) : (s.emitDispatch d).dispatchFault = s.dispatchFault := rfl
@[simp] theorem State.emitDispatch_serialOut (d : Dispatch) : (s.emitDispatch d).serialOut = s.serialOut := rfl
@[simp] theorem State.emitDispatch_checksumOut (d : Dispatch) : (s.emitDispatch d).checksumOut = s.checksumOut := rfl

/-! ### recordDispatchFault -/

@[simp] theorem State.recordDispatchFault_state : (s.recordDispatchFault).state = s.state := rfl
@[simp] theorem State.recordDispatchFault_lengthExpected : (s.recordDispatchFault).lengthExpected = s.lengthExpected := rfl
@[simp] theorem State.recordDispatchFault_lengthReceived : (s.recordDispatchFault).lengthReceived = s.lengthReceived := rfl
@[simp] theorem State.recordDispatchFault_msgId : (s.recordDispatchFault).msgId = s.msgId := rfl
@[simp] theorem State.recordDispatchFault_cksum : (s.recordDispatchFault).cksum = s.cksum := rfl
@[simp] theorem State.recordDispatchFault_mem : (s.recordDispatchFault).mem = s.mem := rfl
@[simp] theorem State.recordDispatchFault_cursor : (s.recordDispatchFault).cursor = s.cursor := rfl
@[simp] theorem State.recordDispatchFault_catalog : (s.recordDispatchFault).catalog = s.catalog := rfl
@[simp] theorem State.recordDispatchFault_input : (s.recordDispatchFault).input = s.input := rfl
@[simp] theorem State.recordDispatchFault_frameOut : (s.recordDispatchFault).frameOut = s.frameOut := rfl
@[simp] theorem State.recordDispatchFault_dispatchOut : (s.recordDispatchFault).dispatchOut = s.dispatchOut := rfl
@[simp] theorem State.recordDispatchFault_diag : (s.recordDispatchFault).diag = s.diag := rfl
@[simp] theorem State.recordDispatchFault_events : (s.recordDispatchFault).events = s.events := rfl
@[simp] theorem State.recordDispatchFault_dispatchFault : (s.recordDispatchFault).dispatchFault = true := rfl
@[simp] theorem State.recordDispatchFault_serialOut : (s.recordDispatchFault).serialOut = s.serialOut := rfl
@[simp] theorem State.recordDispatchFault_checksumOut : (s.recordDispatchFault).checksumOut = s.checksumOut := rfl

/-! ### bufClear -/

@[simp] theorem State.bufClear_state : (s.bufClear).state = s.state := rfl
@[simp] theorem State.bufClear_lengthExpected : (s.bufClear).lengthExpected = s.lengthExpected := rfl
@[simp] theorem State.bufClear_lengthReceived : (s.bufClear).lengthReceived = s.lengthReceived := rfl
@[simp] theorem State.bufClear_msgId : (s.bufClear).msgId = s.msgId := rfl
@[simp] theorem State.bufClear_cksum : (s.bufClear).cksum = s.cksum := rfl
@[simp] theorem State.bufClear_mem : (s.bufClear).mem = s.mem := rfl
@[simp] theorem State.bufClear_cursor : (s.bufClear).cursor = 0 := rfl
@[simp] theorem State.bufClear_catalog : (s.bufClear).catalog = s.catalog := rfl
@[simp] theorem State.bufClear_input : (s.bufClear).input = s.input := rfl
@[simp] theorem State.bufClear_frameOut : (s.bufClear).frameOut = s.frameOut := rfl
@[simp] theorem State.bufClear_dispatchOut : (s.bufClear).dispatchOut = s.dispatchOut := rfl
@[simp] theorem State.bufClear_diag : (s.bufClear).diag = s.diag := rfl
@[simp] theorem State.bufClear_events : (s.bufClear).events = s.events := rfl
@[simp] theorem State.bufClear_dispatchFault : (s.bufClear).dispatchFault = s.dispatchFault := rfl
@[simp] theorem State.bufClear_serialOut : (s.bufClear).serialOut = s.serialOut := rfl
@[simp] theorem State.bufClear_checksumOut : (s.bufClear).checksumOut = s.checksumOut := rfl

/-! ### startFrame -/

@[simp] theorem State.startFrame_state (b : Byte) : (s.startFrame b).state = s.state := rfl
@[simp] theorem State.startFrame_lengthExpected (b : Byte) : (s.startFrame b).lengthExpected = b := rfl
@[simp] theorem State.startFrame_lengthReceived (b : Byte) : (s.startFrame b).lengthReceived = 0#8 := rfl
@[simp] theorem State.startFrame_msgId (b : Byte) : (s.startFrame b).msgId = s.msgId := rfl
@[simp] theorem State.startFrame_cksum (b : Byte) : (s.startFrame b).cksum = b := rfl
@[simp] theorem State.startFrame_mem (b : Byte) : (s.startFrame b).mem = s.mem := rfl
@[simp] theorem State.startFrame_cursor (b : Byte) : (s.startFrame b).cursor = s.cursor := rfl
@[simp] theorem State.startFrame_catalog (b : Byte) : (s.startFrame b).catalog = s.catalog := rfl
@[simp] theorem State.startFrame_input (b : Byte) : (s.startFrame b).input = s.input := rfl
@[simp] theorem State.startFrame_frameOut (b : Byte) : (s.startFrame b).frameOut = s.frameOut := rfl
@[simp] theorem State.startFrame_dispatchOut (b : Byte) : (s.startFrame b).dispatchOut = s.dispatchOut := rfl
@[simp] theorem State.startFrame_diag (b : Byte) : (s.startFrame b).diag = s.diag := rfl
@[simp] theorem State.startFrame_events (b : Byte) : (s.startFrame b).events = s.events := rfl
@[simp] theorem State.startFrame_dispatchFault (b : Byte) : (s.startFrame b).dispatchFault = s.dispatchFault := rfl
@[simp] theorem State.startFrame_serialOut (b : Byte) : (s.startFrame b).serialOut = s.serialOut := rfl
@[simp] theorem State.startFrame_checksumOut (b : Byte) : (s.startFrame b).checksumOut = s.checksumOut := rfl

/-! ### takeId -/

@[simp] theorem State.takeId_state (b : Byte) : (s.takeId b).state = s.state := rfl
@[simp] theorem State.takeId_lengthExpected (b : Byte) : (s.takeId b).lengthExpected = s.lengthExpected := rfl
@[simp] theorem State.takeId_lengthReceived (b : Byte) : (s.takeId b).lengthReceived = s.lengthReceived := rfl
@[simp] theorem State.takeId_msgId (b : Byte) : (s.takeId b).msgId = b := rfl
@[simp] theorem State.takeId_cksum (b : Byte) : (s.takeId b).cksum = s.cksum ^^^ b := rfl
@[simp] theorem State.takeId_mem (b : Byte) : (s.takeId b).mem = s.mem := rfl
@[simp] theorem State.takeId_cursor (b : Byte) : (s.takeId b).cursor = 0 := rfl
@[simp] theorem State.takeId_catalog (b : Byte) : (s.takeId b).catalog = s.catalog := rfl
@[simp] theorem State.takeId_input (b : Byte) : (s.takeId b).input = s.input := rfl
@[simp] theorem State.takeId_frameOut (b : Byte) : (s.takeId b).frameOut = s.frameOut := rfl
@[simp] theorem State.takeId_dispatchOut (b : Byte) : (s.takeId b).dispatchOut = s.dispatchOut := rfl
@[simp] theorem State.takeId_diag (b : Byte) : (s.takeId b).diag = s.diag := rfl
@[simp] theorem State.takeId_events (b : Byte) : (s.takeId b).events = s.events := rfl
@[simp] theorem State.takeId_dispatchFault (b : Byte) : (s.takeId b).dispatchFault = s.dispatchFault := rfl
@[simp] theorem State.takeId_serialOut (b : Byte) : (s.takeId b).serialOut = s.serialOut := rfl
@[simp] theorem State.takeId_checksumOut (b : Byte) : (s.takeId b).checksumOut = s.checksumOut := rfl

/-! ### countByte -/

@[simp] theorem State.countByte_state (b : Byte) : (s.countByte b).state = s.state := rfl
@[simp] theorem State.countByte_lengthExpected (b : Byte) : (s.countByte b).lengthExpected = s.lengthExpected := rfl
@[simp] theorem State.countByte_lengthReceived (b : Byte) : (s.countByte b).lengthReceived = s.lengthReceived + 1#8 := rfl
@[simp] theorem State.countByte_msgId (b : Byte) : (s.countByte b).msgId = s.msgId := rfl
@[simp] theorem State.countByte_cksum (b : Byte) : (s.countByte b).cksum = s.cksum ^^^ b := rfl
@[simp] theorem State.countByte_mem (b : Byte) : (s.countByte b).mem = s.mem := rfl
@[simp] theorem State.countByte_cursor (b : Byte) : (s.countByte b).cursor = s.cursor := rfl
@[simp] theorem State.countByte_catalog (b : Byte) : (s.countByte b).catalog = s.catalog := rfl
@[simp] theorem State.countByte_input (b : Byte) : (s.countByte b).input = s.input := rfl
@[simp] theorem State.countByte_frameOut (b : Byte) : (s.countByte b).frameOut = s.frameOut := rfl
@[simp] theorem State.countByte_dispatchOut (b : Byte) : (s.countByte b).dispatchOut = s.dispatchOut := rfl
@[simp] theorem State.countByte_diag (b : Byte) : (s.countByte b).diag = s.diag := rfl
@[simp] theorem State.countByte_events (b : Byte) : (s.countByte b).events = s.events := rfl
@[simp] theorem State.countByte_dispatchFault (b : Byte) : (s.countByte b).dispatchFault = s.dispatchFault := rfl
@[simp] theorem State.countByte_serialOut (b : Byte) : (s.countByte b).serialOut = s.serialOut := rfl
@[simp] theorem State.countByte_checksumOut (b : Byte) : (s.countByte b).checksumOut = s.checksumOut := rfl

/-! ### resetRegs -/

@[simp] theorem State.resetRegs_state : (s.resetRegs).state = .awaitSync1 := rfl
@[simp] theorem State.resetRegs_lengthExpected : (s.resetRegs).lengthExpected = 0#8 := rfl
@[simp] theorem State.resetRegs_lengthReceived : (s.resetRegs).lengthReceived = 0#8 := rfl
@[simp] theorem State.resetRegs_msgId : (s.resetRegs).msgId = 0#8 := rfl
@[simp] theorem State.resetRegs_cksum : (s.resetRegs).cksum = 0#8 := rfl
@[simp] theorem State.resetRegs_mem : (s.resetRegs).mem = s.mem := rfl
@[simp] theorem State.resetRegs_cursor : (s.resetRegs).cursor = 0 := rfl
@[simp] theorem State.resetRegs_catalog : (s.resetRegs).catalog = s.catalog := rfl
@[simp] theorem State.resetRegs_input : (s.resetRegs).input = s.input := rfl
@[simp] theorem State.resetRegs_frameOut : (s.resetRegs).frameOut = s.frameOut := rfl
@[simp] theorem State.resetRegs_dispatchOut : (s.resetRegs).dispatchOut = s.dispatchOut := rfl
@[simp] theorem State.resetRegs_diag : (s.resetRegs).diag = s.diag := rfl
@[simp] theorem State.resetRegs_events : (s.resetRegs).events = s.events := rfl
@[simp] theorem State.resetRegs_dispatchFault : (s.resetRegs).dispatchFault = s.dispatchFault := rfl
@[simp] theorem State.resetRegs_serialOut : (s.resetRegs).serialOut = s.serialOut := rfl
@[simp] theorem State.resetRegs_checksumOut : (s.resetRegs).checksumOut = s.checksumOut := rfl

/-! ### closeFrame -/

@[simp] theorem State.closeFrame_state (f : Frame) : (s.closeFrame f).state = .awaitSync1 := rfl
@[simp] theorem State.closeFrame_lengthExpected (f : Frame) : (s.closeFrame f).lengthExpected = s.lengthExpected := rfl
@[simp] theorem State.closeFrame_lengthReceived (f : Frame) : (s.closeFrame f).lengthReceived = s.lengthReceived := rfl
@[simp] theorem State.closeFrame_msgId (f : Frame) : (s.closeFrame f).msgId = s.msgId := rfl
@[simp] theorem State.closeFrame_cksum (f : Frame) : (s.closeFrame f).cksum = s.cksum := rfl
@[simp] theorem State.closeFrame_mem (f : Frame) : (s.closeFrame f).mem = s.mem := rfl
@[simp] theorem State.closeFrame_cursor (f : Frame) : (s.closeFrame f).cursor = s.cursor := rfl
@[simp] theorem State.closeFrame_catalog (f : Frame) : (s.closeFrame f).catalog = s.catalog := rfl
@[simp] theorem State.closeFrame_input (f : Frame) : (s.closeFrame f).input = s.input := rfl
@[simp] theorem State.closeFrame_frameOut (f : Frame) : (s.closeFrame f).frameOut = some f := rfl
@[simp] theorem State.closeFrame_dispatchOut (f : Frame) : (s.closeFrame f).dispatchOut = s.dispatchOut := rfl
@[simp] theorem State.closeFrame_diag (f : Frame) : (s.closeFrame f).diag = s.diag := rfl
@[simp] theorem State.closeFrame_events (f : Frame) : (s.closeFrame f).events = s.events ++ [.frame f] := rfl
@[simp] theorem State.closeFrame_dispatchFault (f : Frame) : (s.closeFrame f).dispatchFault = s.dispatchFault := rfl
@[simp] theorem State.closeFrame_serialOut (f : Frame) : (s.closeFrame f).serialOut = s.serialOut := rfl
@[simp] theorem State.closeFrame_checksumOut (f : Frame) : (s.closeFrame f).checksumOut = s.checksumOut := rfl

/-! ### consume -/

@[simp] theorem State.consume_state : (s.consume).state = s.state := rfl
@[simp] theorem State.consume_lengthExpected : (s.consume).lengthExpected = s.lengthExpected := rfl
@[simp] theorem State.consume_lengthReceived : (s.consume).lengthReceived = s.lengthReceived := rfl
@[simp] theorem State.consume_msgId : (s.consume).msgId = s.msgId := rfl
@[simp] theorem State.consume_cksum : (s.consume).cksum = s.cksum := rfl
@[simp] theorem State.consume_mem : (s.consume).mem = s.mem := rfl
@[simp] theorem State.consume_cursor : (s.consume).cursor = s.cursor := rfl
@[simp] theorem State.consume_catalog : (s.consume).catalog = s.catalog := rfl
@[simp] theorem State.consume_input : (s.consume).input = s.input.tail := rfl
@[simp] theorem State.consume_frameOut : (s.consume).frameOut = s.frameOut := rfl
@[simp] theorem State.consume_dispatchOut : (s.consume).dispatchOut = s.dispatchOut := rfl
@[simp] theorem State.consume_diag : (s.consume).diag = s.diag := rfl
@[simp] theorem State.consume_events : (s.consume).events = s.events := rfl
@[simp] theorem State.consume_dispatchFault : (s.consume).dispatchFault = s.dispatchFault := rfl
@[simp] theorem State.consume_serialOut : (s.consume).serialOut = s.serialOut := rfl
@[simp] theorem State.consume_checksumOut : (s.consume).checksumOut = s.checksumOut := rfl

/-! ### present -/

@[simp] theorem State.present_state (p : Presented) : (s.present p).state = s.state := rfl
@[simp] theorem State.present_lengthExpected (p : Presented) : (s.present p).lengthExpected = s.lengthExpected := rfl
@[simp] theorem State.present_lengthReceived (p : Presented) : (s.present p).lengthReceived = s.lengthReceived := rfl
@[simp] theorem State.present_msgId (p : Presented) : (s.present p).msgId = s.msgId := rfl
@[simp] theorem State.present_cksum (p : Presented) : (s.present p).cksum = s.cksum := rfl
@[simp] theorem State.present_mem (p : Presented) : (s.present p).mem = s.mem := rfl
@[simp] theorem State.present_cursor (p : Presented) : (s.present p).cursor = s.cursor := rfl
@[simp] theorem State.present_catalog (p : Presented) : (s.present p).catalog = s.catalog := rfl
@[simp] theorem State.present_input (p : Presented) : (s.present p).input = p :: s.input := rfl
@[simp] theorem State.present_frameOut (p : Presented) : (s.present p).frameOut = s.frameOut := rfl
@[simp] theorem State.present_dispatchOut (p : Presented) : (s.present p).dispatchOut = s.dispatchOut := rfl
@[simp] theorem State.present_diag (p : Presented) : (s.present p).diag = s.diag := rfl
@[simp] theorem State.present_events (p : Presented) : (s.present p).events = s.events := rfl
@[simp] theorem State.present_dispatchFault (p : Presented) : (s.present p).dispatchFault = s.dispatchFault := rfl
@[simp] theorem State.present_serialOut (p : Presented) : (s.present p).serialOut = s.serialOut := rfl
@[simp] theorem State.present_checksumOut (p : Presented) : (s.present p).checksumOut = s.checksumOut := rfl

/-! ### Derived reads -/

/-- Well-formedness reads the Decoder's record alone (R15, R30). -/
theorem State.wf_congr {s t : State} (h : s.sameDecoder t) : s.wf = t.wf := by
  obtain ⟨h1, h2, h3, h4, h5, h6, h7⟩ := h
  simp only [State.wf, State.buf?, State.clauseHolds, h1, h2, h3, h4, h5, h6, h7]

@[simp] theorem State.clearOutputs_buf : s.clearOutputs.buf? = s.buf? := rfl
@[simp] theorem State.goto_buf (st : SeqState) : (s.goto st).buf? = s.buf? := rfl
@[simp] theorem State.raise_buf (e : ErrorClass) : (s.raise e).buf? = s.buf? := rfl
@[simp] theorem State.emitFrame_buf (f : Frame) : (s.emitFrame f).buf? = s.buf? := rfl
@[simp] theorem State.emitDispatch_buf (d : Dispatch) : (s.emitDispatch d).buf? = s.buf? := rfl
@[simp] theorem State.recordDispatchFault_buf : s.recordDispatchFault.buf? = s.buf? := rfl
@[simp] theorem State.startFrame_buf (b : Byte) : (s.startFrame b).buf? = s.buf? := rfl
@[simp] theorem State.countByte_buf (b : Byte) : (s.countByte b).buf? = s.buf? := rfl
@[simp] theorem State.closeFrame_buf (f : Frame) : (s.closeFrame f).buf? = s.buf? := rfl
@[simp] theorem State.consume_buf : s.consume.buf? = s.buf? := rfl
@[simp] theorem State.present_buf (p : Presented) : (s.present p).buf? = s.buf? := rfl
@[simp] theorem State.bufClear_buf : s.bufClear.buf? = some [] := rfl
@[simp] theorem State.takeId_buf (b : Byte) : (s.takeId b).buf? = some [] := rfl
@[simp] theorem State.resetRegs_buf : s.resetRegs.buf? = some [] := rfl

@[simp] theorem State.clearOutputs_wf : s.clearOutputs.wf = s.wf := rfl
@[simp] theorem State.raise_wf (e : ErrorClass) : (s.raise e).wf = s.wf := rfl
@[simp] theorem State.consume_wf : s.consume.wf = s.wf := rfl
@[simp] theorem State.present_wf (p : Presented) : (s.present p).wf = s.wf := rfl
@[simp] theorem State.clearOutputs_keyRegs : s.clearOutputs.keyRegs = s.keyRegs := rfl
@[simp] theorem State.consume_keyRegs : s.consume.keyRegs = s.keyRegs := rfl
@[simp] theorem State.keyRegs_state : s.keyRegs.state = s.state := rfl
@[simp] theorem State.keyRegs_lengthExpected : s.keyRegs.lengthExpected = s.lengthExpected := rfl
@[simp] theorem State.keyRegs_lengthReceived : s.keyRegs.lengthReceived = s.lengthReceived := rfl
@[simp] theorem State.keyRegs_cksum : s.keyRegs.cksum = s.cksum := rfl

end Sys2Proof.Machine
end

