-- ==== Sys2Proof/Laws/Decode.lean ====
section
/-! SUPPORT. What the decoder answers, once per position (R52), so that no later proof walks the table. -/

namespace Sys2Proof

/-- The low byte of a word with a byte appended. -/
theorem lowByte_append {n : Nat} (x : BitVec n) (b : Byte) : (x ++ b).extractLsb' 0 8 = b := by
  apply BitVec.eq_of_getLsbD_eq
  intro i hi
  simp [BitVec.getLsbD_append, hi]

/-- The bits above an appended byte. -/
theorem high_append {n : Nat} (x : BitVec n) (b : Byte) : (x ++ b).extractLsb' 8 n = x := by
  apply BitVec.eq_of_getLsbD_eq
  intro i hi
  simp [BitVec.getLsbD_append, hi]

@[simp] theorem keyByte_stepKeyOf (st : SeqState) (b : Byte) : keyByte (stepKeyOf st b) = b :=
  lowByte_append st.code b

theorem keyHigh_stepKeyOf (st : SeqState) (b : Byte) : (stepKeyOf st b).extractLsb' 8 3 = st.code :=
  high_append st.code b

@[simp] theorem ofCode_code (st : SeqState) : SeqState.ofCode st.code = st := by cases st <;> rfl

@[simp] theorem code_ofCode (c : BitVec 3) : (SeqState.ofCode c).code = c := by
  revert c; decide

@[simp] theorem keyState_stepKeyOf (st : SeqState) (b : Byte) : keyState (stepKeyOf st b) = st := by
  simp [keyState, keyHigh_stepKeyOf]

/-- A step key is its two fields. -/
theorem stepKeyOf_fields (k : BitVec 11) : stepKeyOf (keyState k) (keyByte k) = k := by
  unfold stepKeyOf keyState
  rw [code_ofCode]
  apply BitVec.eq_of_getLsbD_eq
  intro i hi
  simp only [keyByte, BitVec.getLsbD_append, BitVec.getLsbD_extractLsb']
  by_cases h : i < 8
  · simp [h]
  · simp [h, show i - 8 < 3 by omega, show 8 + (i - 8) = i by omega]

/-- A row that masks the byte away compares the state code alone. -/
theorem maskState_stepKeyOf (st : SeqState) (b : Byte) (c : BitVec 3) :
    (stepKeyOf st b &&& 0x700#11 == c ++ 0#8) = (st.code == c) := by
  have h1 : (0x700#11) = (7#3 ++ 0#8 : BitVec 11) := rfl
  have h2 : stepKeyOf st b &&& 0x700#11 = (st.code ++ 0#8 : BitVec 11) := by
    rw [h1]; unfold stepKeyOf
    rw [BitVec.and_append]
    have : st.code &&& 7#3 = st.code := by cases st <;> rfl
    simp [this]
  rw [h2]
  cases st <;> revert c <;> decide

/-- A row that masks nothing compares the whole key. -/
theorem maskAll_stepKeyOf (st : SeqState) (b : Byte) (c : BitVec 3) (d : Byte) :
    (stepKeyOf st b &&& 0x7FF#11 == c ++ d) = (st.code == c && b == d) := by
  have h : stepKeyOf st b &&& 0x7FF#11 = stepKeyOf st b := by
    have : (0x7FF#11) = BitVec.allOnes 11 := rfl
    rw [this, BitVec.and_allOnes]
  rw [h, Bool.eq_iff_iff]
  simp only [beq_iff_eq, Bool.and_eq_true]
  constructor
  · intro he
    have h1 := congrArg (BitVec.extractLsb' 8 3) he
    have h2 := congrArg (BitVec.extractLsb' 0 8) he
    rw [keyHigh_stepKeyOf] at h1
    have h3 : (stepKeyOf st b).extractLsb' 0 8 = b := lowByte_append st.code b
    exact ⟨h1.trans (high_append c d), (h3.symm.trans h2).trans (lowByte_append c d)⟩
  · rintro ⟨h1, h2⟩
    simp [stepKeyOf, h1, h2]

/-- The table's answer as a case split on the position: one equation for all keys (R52, R53, R64 a). -/
theorem decodeKey_stepKeyOf (r : KeyRegs) (st : SeqState) (b : Byte) :
    decodeKey r (stepKeyOf st b) =
      match st with
      | .awaitSync1 => .ok (if b = Config.sync1 then .dSync1Hit else .dSync1Miss b)
      | .awaitSync2 => .ok (if b = Config.sync2 then .dSync2Hit else .dSync2Miss b)
      | .awaitDirection => .ok (.dDir b)
      | .awaitLength => .ok (.dLen b)
      | .awaitId => .ok (if r.hasPayload then .dIdNz b else .dIdZ b)
      | .awaitPayload => .ok (if r.isLastByte then .dPayLast b else .dPayMore b)
      | .awaitChecksum => .ok (if r.checksumMatches b then .dCkOk b else .dCkBad b)
      | .unused7 => .error (.illegalStepKey (stepKeyOf .unused7 b)) := by
  have m0 := maskState_stepKeyOf st b 0#3
  have m1 := maskState_stepKeyOf st b 1#3
  have m2 := maskState_stepKeyOf st b 2#3
  have m3 := maskState_stepKeyOf st b 3#3
  have m4 := maskState_stepKeyOf st b 4#3
  have m5 := maskState_stepKeyOf st b 5#3
  have m6 := maskState_stepKeyOf st b 6#3
  have a0 := maskAll_stepKeyOf st b 0#3 0x24#8
  have a1 := maskAll_stepKeyOf st b 1#3 0x4D#8
  simp only [show (0#3 ++ 0#8 : BitVec 11) = 0x000#11 from rfl] at m0
  simp only [show (1#3 ++ 0#8 : BitVec 11) = 0x100#11 from rfl] at m1
  simp only [show (2#3 ++ 0#8 : BitVec 11) = 0x200#11 from rfl] at m2
  simp only [show (3#3 ++ 0#8 : BitVec 11) = 0x300#11 from rfl] at m3
  simp only [show (4#3 ++ 0#8 : BitVec 11) = 0x400#11 from rfl] at m4
  simp only [show (5#3 ++ 0#8 : BitVec 11) = 0x500#11 from rfl] at m5
  simp only [show (6#3 ++ 0#8 : BitVec 11) = 0x600#11 from rfl] at m6
  simp only [show (0#3 ++ 0x24#8 : BitVec 11) = 0x024#11 from rfl] at a0
  simp only [show (1#3 ++ 0x4D#8 : BitVec 11) = 0x14D#11 from rfl] at a1
  cases st <;>
    simp only [decodeKey, keyRows, List.find?, KeyRow.applies, keyByte_stepKeyOf, m0, m1, m2, m3, m4, m5, m6, a0, a1,
      SeqState.code] <;>
    simp [Config.sync1, Config.sync2]
  · cases h : (b == 0x24#8) <;> simp_all
  · cases h : (b == 0x4D#8) <;> simp_all
  · cases r.hasPayload <;> simp
  · cases r.isLastByte <;> simp
  · cases r.checksumMatches b <;> simp

/-- A key with a code 0 to 6 selects an operation (R53). -/
theorem decodeKey_isOk (r : KeyRegs) {k : BitVec 11} (h : keyState k ≠ .unused7) : ∃ i, decodeKey r k = .ok i := by
  rw [← stepKeyOf_fields k, decodeKey_stepKeyOf]
  generalize keyState k = st at h
  cases st <;> first | exact ⟨_, rfl⟩ | exact absurd rfl h

/-- Bit `8 + i` of a command word is bit `i` of its two control bits. -/
theorem commandWord_control (r v : Bool) (b : Byte) (i : Nat) :
    (commandWord r v b).getLsbD (8 + i) = (BitVec.ofBool r ++ BitVec.ofBool v).getLsbD i := by
  have h : (commandWord r v b).getLsbD (8 + i) = _ :=
    BitVec.getLsbD_append (x := BitVec.ofBool r ++ BitVec.ofBool v) (y := b) (i := 8 + i)
  rw [h]
  simp

@[simp] theorem decodeCommand_commandWord (r v : Bool) (b : Byte) :
    decodeCommand (commandWord r v b) = if r then .reset else if v then .feed b else .idle := by
  have h9 := commandWord_control r v b 1
  have h8 := commandWord_control r v b 0
  have h : (commandWord r v b).extractLsb' 0 8 = b := lowByte_append (BitVec.ofBool r ++ BitVec.ofBool v) b
  simp only [decodeCommand, h9, h8, h]
  cases r <;> cases v <;> rfl

end Sys2Proof

namespace Sys2Proof.Machine

@[simp] theorem decodePresented_feed (r : KeyRegs) (b : Byte) :
    decodePresented r (feedCommand b) = decodeKey r (stepKeyOf r.state b) := by
  simp [decodePresented, feedCommand]

@[simp] theorem decodePresented_reset (r : KeyRegs) : decodePresented r resetCommand = .ok .reset := by
  simp [decodePresented, resetCommand]

@[simp] theorem decodePresented_idle (r : KeyRegs) : decodePresented r idleCommand = .ok .idle := by
  simp [decodePresented, idleCommand]

end Sys2Proof.Machine
end

