-- ==== Sys2Proof/Laws/Memory.lean ====
section
/-! SUPPORT. The buffer cells: read after write, the canonical form, and what `BufAppend` does to the abstract buffer. -/

namespace Sys2Proof.Machine

variable {m m' : Memory} {k j : Nat} {b : Byte}

@[simp] theorem Memory.read_nil (k : Nat) : Memory.read [] k = none := rfl

/-- A read after a write to the same cell gives the value written. -/
@[simp] theorem Memory.read_put_same (m : Memory) (k : Nat) (b : Byte) : (m.put k b).read k = some b := by
  induction m with
  | nil => simp [Memory.put, Memory.read]
  | cons c m ih =>
    by_cases h1 : k < c.1
    · simp [Memory.put, Memory.read, h1]
    · by_cases h2 : c.1 = k
      · simp [Memory.put, Memory.read, h2]
      · simp [Memory.put, Memory.read, h1, h2, ih]

/-- A write leaves every other cell alone. -/
theorem Memory.read_put_other (m : Memory) (b : Byte) (h : j ≠ k) : (m.put k b).read j = m.read j := by
  induction m with
  | nil => simp [Memory.put, Memory.read, Ne.symm h, Memory.unlisted]
  | cons c m ih =>
    by_cases h1 : k < c.1
    · simp [Memory.put, Memory.read, h1, Ne.symm h]
    · by_cases h2 : c.1 = k
      · simp [Memory.put, Memory.read, h2, Ne.symm h]
      · simp [Memory.put, Memory.read, h1, h2, ih]

/-- A write answers exactly when the cell exists, and then it is `put`. -/
theorem Memory.write_eq_some (m : Memory) (b : Byte) (h : k < Config.bufCap) : m.write k b = some (m.put k b) := by
  simp [Memory.write, h]

theorem Memory.write_eq_none (m : Memory) (b : Byte) (h : ¬ k < Config.bufCap) : m.write k b = none := by
  simp [Memory.write, h]

/-- All a write can do: the cell exists and the result is `put`. -/
theorem Memory.write_cases (h : m.write k b = some m') : k < Config.bufCap ∧ m' = m.put k b := by
  unfold Memory.write at h
  split at h
  · exact ⟨‹_›, (Option.some.inj h).symm⟩
  · cases h

/-- Every write keeps the canonical form. -/
theorem Memory.wfFrom_put {lo : Nat} (hk : k < Config.bufCap) (hlo : lo ≤ k) (h : m.wfFrom lo = true) :
    (m.put k b).wfFrom lo = true := by
  induction m generalizing lo with
  | nil => simp [Memory.put, Memory.wfFrom, hk, hlo]
  | cons c m ih =>
    simp only [Memory.wfFrom, Bool.and_eq_true, decide_eq_true_eq] at h
    obtain ⟨⟨h1, h2⟩, h3⟩ := h
    by_cases h4 : k < c.1
    · simp [Memory.put, Memory.wfFrom, h4, hk, hlo, h2, h3, Nat.succ_le_of_lt h4]
    · by_cases h5 : c.1 = k
      · subst h5
        simp [Memory.put, Memory.wfFrom, h1, h2, h3]
      · have h6 : c.1 + 1 ≤ k := by omega
        simp [Memory.put, Memory.wfFrom, h4, h5, h1, h2, ih h6 h3]

theorem Memory.wf_write (hm : m.wf = true) (h : m.write k b = some m') : m'.wf = true := by
  obtain ⟨hk, rfl⟩ := Memory.write_cases h
  exact Memory.wfFrom_put hk (Nat.zero_le k) hm

/-- The reset memory has the canonical form. -/
theorem Memory.wf_reset : State.reset.mem.wf = true := rfl

/-- Reading the first `n` cells is untouched by a write at or above `n`. -/
theorem Memory.readSeq_put_ge (m : Memory) (b : Byte) {n : Nat} (h : n ≤ k) :
    (m.put k b).readSeq n = m.readSeq n := by
  induction n with
  | zero => rfl
  | succ n ih =>
    have hne : n ≠ k := by omega
    simp [Memory.readSeq, ih (by omega), Memory.read_put_other m b hne]

/-- `BufAppend` on the abstract buffer: writing the cell above the first `n` appends the byte. -/
theorem Memory.readSeq_append {l : List Byte} {n : Nat} (h : m.readSeq n = some l) :
    (m.put n b).readSeq (n + 1) = some (l ++ [b]) := by
  simp [Memory.readSeq, Memory.readSeq_put_ge m b (Nat.le_refl n), h]

/-- The abstract buffer has as many bytes as the cursor says. -/
theorem Memory.readSeq_length {l : List Byte} {n : Nat} (h : m.readSeq n = some l) : l.length = n := by
  induction n generalizing l with
  | zero => simp [Memory.readSeq] at h; simp [← h]
  | succ n ih =>
    simp only [Memory.readSeq] at h
    split at h
    · rename_i l' b' h1 h2
      cases h
      simp [ih h1]
    · cases h

/-- Reading cells one by one and reading them as a sequence agree. -/
theorem Memory.readSeq_getElem {l : List Byte} {n : Nat} (h : m.readSeq n = some l) (hk : k < n) :
    l[k]? = m.read k := by
  induction n generalizing l with
  | zero => omega
  | succ n ih =>
    simp only [Memory.readSeq] at h
    split at h
    · rename_i l' b' h1 h2
      cases h
      have hlen := Memory.readSeq_length h1
      by_cases hkn : k < n
      · rw [List.getElem?_append_left (by omega), ih h1 hkn]
      · have : k = n := by omega
        subst this
        rw [List.getElem?_append_right (by omega)]
        simp [hlen, h2]
    · cases h

theorem State.buf_length {s : State} {l : List Byte} (h : s.buf? = some l) : l.length = s.cursor :=
  Memory.readSeq_length h

end Sys2Proof.Machine
end

