-- ==== Sys2Proof/Laws/Operands.lean ====
section
/-! SUPPORT. The checksum fold (R85, R88), field cutting (R99) and the catalog lookup. -/

namespace Sys2Proof.Machine

theorem foldl_xor_start (l : List Byte) (a : Byte) : l.foldl (· ^^^ ·) a = a ^^^ l.foldl (· ^^^ ·) 0#8 := by
  induction l generalizing a with
  | nil => simp
  | cons b l ih => rw [List.foldl_cons, List.foldl_cons, ih, ih (0#8 ^^^ b)]; simp [BitVec.xor_assoc]

@[simp] theorem xorAll_nil : xorAll [] = 0#8 := rfl

@[simp] theorem xorAll_cons (b : Byte) (l : List Byte) : xorAll (b :: l) = b ^^^ xorAll l := by
  simp only [xorAll, List.foldl_cons]
  rw [foldl_xor_start]
  simp

@[simp] theorem xorAll_append (l r : List Byte) : xorAll (l ++ r) = xorAll l ^^^ xorAll r := by
  induction l with
  | nil => simp
  | cons b l ih => simp [ih, BitVec.xor_assoc]

/-- A frame's checksum is `L ^ id ^ XOR(p)` (R86). -/
theorem frameChecksum_eq (len id : Byte) (p : List Byte) : frameChecksum len id p = len ^^^ id ^^^ xorAll p := by
  simp [frameChecksum, checksumOf, BitVec.xor_assoc]

@[simp] theorem wireFrame_length (d id : Byte) (p : List Byte) : (wireFrame d id p).length = 6 + p.length := by
  simp [wireFrame]; omega

/-- All field cutting can do: the payload is exactly `4 * n` bytes. -/
theorem cutFields_length {n : Nat} {p : List Byte} {fs : List Word32} (h : cutFields n p = some fs) :
    p.length = 4 * n ∧ fs.length = n := by
  induction n generalizing p fs with
  | zero =>
    match p, h with
    | [], h => simp [cutFields] at h; simp [← h]
  | succ n ih =>
    match p, h with
    | b0 :: b1 :: b2 :: b3 :: rest, h =>
      simp only [cutFields, Option.map_eq_some_iff] at h
      obtain ⟨gs, h1, rfl⟩ := h
      have := ih h1
      simp; omega

/-- A payload of `4 * n` bytes is always cut. -/
theorem cutFields_isSome {n : Nat} {p : List Byte} (h : p.length = 4 * n) : ∃ fs, cutFields n p = some fs := by
  induction n generalizing p with
  | zero => simp [List.length_eq_zero_iff.mp h, cutFields]
  | succ n ih =>
    match p, h with
    | b0 :: b1 :: b2 :: b3 :: rest, h =>
      obtain ⟨fs, hfs⟩ := ih (p := rest) (by simp at h; omega)
      exact ⟨le32 b0 b1 b2 b3 :: fs, by simp [cutFields, hfs]⟩

theorem cutFields_eq_none {n : Nat} {p : List Byte} (h : p.length ≠ 4 * n) : cutFields n p = none := by
  cases hc : cutFields n p with
  | none => rfl
  | some fs => exact absurd (cutFields_length hc).1 h

@[simp] theorem fieldCountOf_tested121 : fieldCountOf Config.testedCatalog 0x79#8 = some 6 := rfl
@[simp] theorem fieldCountOf_tested122 : fieldCountOf Config.testedCatalog 0x7A#8 = some 3 := rfl

end Sys2Proof.Machine
end

