-- ==== Sys2Proof/Laws/Ops.lean ====
section
/-! SUPPORT. For each shared operation of Machine/Ops.lean one lemma that says once everything it can do. -/

namespace Sys2Proof.Machine

variable {s t : State} {sel : Bool} {effect : State → Result}

/-! ### Well-formedness -/

/-- A well-formed state has buffer contents, at most 255 of them, and they meet its clause (R30). -/
theorem State.wf_iff : s.wf = true ↔ s.cursor ≤ Config.bufCap ∧ ∃ buf, s.buf? = some buf ∧ s.clauseHolds buf = true := by
  unfold State.wf
  cases h : s.buf? <;> simp

theorem State.wf_buf (h : s.wf = true) : ∃ buf, s.buf? = some buf ∧ s.clauseHolds buf = true := (State.wf_iff.mp h).2

/-- No well-formed state has code 7 (R30). -/
theorem State.wf_not_unused (h : s.wf = true) : s.state ≠ .unused7 := by
  obtain ⟨buf, -, hc⟩ := State.wf_buf h
  intro hs
  simp [State.clauseHolds, hs] at hc

/-- The `AwaitId` clause of R30. -/
theorem State.wf_awaitId (h : s.wf = true) (hs : s.state = .awaitId) :
    s.lengthReceived = 0#8 ∧ s.cksum = s.lengthExpected := by
  obtain ⟨buf, -, hc⟩ := State.wf_buf h
  simpa [State.clauseHolds, hs] using hc

/-- The `AwaitPayload` clause of R30, with the room left in the array (R24). -/
theorem State.wf_awaitPayload (h : s.wf = true) (hs : s.state = .awaitPayload) :
    ∃ buf, s.buf? = some buf ∧ 1 ≤ s.lengthExpected.toNat ∧ s.lengthReceived.toNat < s.lengthExpected.toNat
      ∧ buf.length = s.lengthReceived.toNat ∧ s.cksum = s.lengthExpected ^^^ s.msgId ^^^ xorAll buf
      ∧ s.cursor = s.lengthReceived.toNat ∧ s.cursor < Config.bufCap := by
  obtain ⟨buf, hb, hc⟩ := State.wf_buf h
  simp only [State.clauseHolds, hs, Bool.and_eq_true, decide_eq_true_eq, beq_iff_eq] at hc
  obtain ⟨⟨⟨h1, h2⟩, h3⟩, h4⟩ := hc
  have hl := State.buf_length hb
  have := s.lengthExpected.isLt
  refine ⟨buf, hb, h1, h2, h3, h4, by omega, ?_⟩
  simp only [Config.bufCap]; omega

/-- The `AwaitChecksum` clause of R30. -/
theorem State.wf_awaitChecksum (h : s.wf = true) (hs : s.state = .awaitChecksum) :
    ∃ buf, s.buf? = some buf ∧ s.lengthReceived = s.lengthExpected ∧ buf.length = s.lengthExpected.toNat
      ∧ s.cksum = s.lengthExpected ^^^ s.msgId ^^^ xorAll buf := by
  obtain ⟨buf, hb, hc⟩ := State.wf_buf h
  simp only [State.clauseHolds, hs, Bool.and_eq_true, beq_iff_eq] at hc
  exact ⟨buf, hb, hc.1.1, hc.1.2, hc.2⟩

/-! ### One Decoder operation -/

/-- Everything a Decoder operation can do when it answers a next state. -/
theorem State.decoderStep_next :
    s.decoderStep sel effect = .next t ↔ s.wf = true ∧ sel = true ∧ effect s.clearOutputs = .next t := by
  unfold State.decoderStep
  cases s.wf <;> cases sel <;> simp

/-- A selected operation on a well-formed state is its effect (R34). -/
theorem State.decoderStep_selected (hwf : s.wf = true) (hsel : sel = true) :
    s.decoderStep sel effect = effect s.clearOutputs := by
  simp [State.decoderStep, hwf, hsel]

/-- A Decoder operation on a state that is not well-formed is refused (R30). -/
theorem State.decoderStep_illFormed (hwf : s.wf = false) : s.decoderStep sel effect = .refused .illFormedState := by
  simp [State.decoderStep, hwf]

theorem State.decoderStep_notSelected (hwf : s.wf = true) (hsel : sel = false) :
    s.decoderStep sel effect = .refused .notSelected := by
  simp [State.decoderStep, hwf, hsel]

/-! ### BufAppend -/

/-- Where the array has room, `BufAppend` writes the cell at the cursor and moves it up (R24). -/
theorem State.bufAppend_room (b : Byte) (k : State → Result) (h : s.cursor < Config.bufCap) :
    s.bufAppend b k = k { s with mem := s.mem.put s.cursor b, cursor := s.cursor + 1 } := by
  simp [State.bufAppend, Memory.write_eq_some _ _ h]

/-- Everything `BufAppend` can do when it answers a next state. -/
theorem State.bufAppend_next {b : Byte} {k : State → Result} (h : s.bufAppend b k = .next t) :
    s.cursor < Config.bufCap ∧ k { s with mem := s.mem.put s.cursor b, cursor := s.cursor + 1 } = .next t := by
  by_cases hc : s.cursor < Config.bufCap
  · exact ⟨hc, by rwa [State.bufAppend_room b k hc] at h⟩
  · simp [State.bufAppend, Memory.write_eq_none _ _ hc] at h

/-- The abstract buffer after `BufAppend`. -/
theorem State.append_buf {buf : List Byte} (b : Byte) (h : s.buf? = some buf) :
    ({ s with mem := s.mem.put s.cursor b, cursor := s.cursor + 1 } : State).buf? = some (buf ++ [b]) :=
  Memory.readSeq_append h

/-! ### The dispatch stage -/

/-- Everything the stage can do with a known identifier (R99 to R101). -/
theorem State.deliverFields_cases (n : Nat) (f : Frame) (s : State) :
    (∃ fs, cutFields n f.payload = some fs ∧ f.payload.length = 4 * n ∧ s.deliverFields n f = s.emitDispatch ⟨f.id, fs⟩)
    ∨ (cutFields n f.payload = none ∧ f.payload.length ≠ 4 * n
        ∧ s.deliverFields n f = (s.raise .layoutMismatch).recordDispatchFault) := by
  by_cases h : f.payload.length = 4 * n
  · obtain ⟨fs, hfs⟩ := cutFields_isSome h
    exact .inl ⟨fs, hfs, h, by simp [State.deliverFields, hfs]⟩
  · have hn := cutFields_eq_none h
    exact .inr ⟨hn, h, by simp [State.deliverFields, hn]⟩

/-- Everything the dispatch stage can do (R96, R97, R101, R104). -/
theorem State.dispatchFrame_cases (f : Frame) (s : State) :
    (fieldCountOf s.catalog f.id = none ∧ s.dispatchFrame f = s.raise .unknownId)
    ∨ (∃ n fs, fieldCountOf s.catalog f.id = some n ∧ cutFields n f.payload = some fs ∧ f.payload.length = 4 * n
        ∧ s.dispatchFrame f = s.emitDispatch ⟨f.id, fs⟩)
    ∨ (∃ n, fieldCountOf s.catalog f.id = some n ∧ cutFields n f.payload = none ∧ f.payload.length ≠ 4 * n
        ∧ s.dispatchFrame f = (s.raise .layoutMismatch).recordDispatchFault) := by
  cases h : fieldCountOf s.catalog f.id with
  | none => exact .inl ⟨rfl, by simp [State.dispatchFrame, h]⟩
  | some n =>
    have he : s.dispatchFrame f = s.deliverFields n f := by simp [State.dispatchFrame, h]
    obtain ⟨fs, h1, h2, h3⟩ | ⟨h1, h2, h3⟩ := State.deliverFields_cases n f s
    · exact .inr (.inl ⟨n, fs, rfl, h1, h2, he.trans h3⟩)
    · exact .inr (.inr ⟨n, rfl, h1, h2, he.trans h3⟩)

section DispatchFrame
variable (f : Frame) (n : Nat) (s : State)

/-- The stage on a known identifier writes at most the outputs, the record of events and the fault record. -/
theorem State.deliverFields_shape :
    s.deliverFields n f = { s with dispatchOut := (s.deliverFields n f).dispatchOut, diag := (s.deliverFields n f).diag,
                                   events := (s.deliverFields n f).events,
                                   dispatchFault := (s.deliverFields n f).dispatchFault } := by
  obtain ⟨fs, -, -, h⟩ | ⟨-, -, h⟩ := State.deliverFields_cases n f s <;> rw [h] <;> rfl

/-- The stage writes no Decoder state (R96): at most the outputs, the record of events and the fault record. -/
theorem State.dispatchFrame_shape :
    s.dispatchFrame f = { s with dispatchOut := (s.dispatchFrame f).dispatchOut, diag := (s.dispatchFrame f).diag,
                                 events := (s.dispatchFrame f).events,
                                 dispatchFault := (s.dispatchFrame f).dispatchFault } := by
  obtain ⟨-, h⟩ | ⟨_, _, -, -, -, h⟩ | ⟨_, -, -, -, h⟩ := State.dispatchFrame_cases f s <;> rw [h] <;> rfl

@[simp] theorem State.dispatchFrame_state : (s.dispatchFrame f).state = s.state := by rw [dispatchFrame_shape]
@[simp] theorem State.dispatchFrame_lengthExpected : (s.dispatchFrame f).lengthExpected = s.lengthExpected := by rw [dispatchFrame_shape]
@[simp] theorem State.dispatchFrame_lengthReceived : (s.dispatchFrame f).lengthReceived = s.lengthReceived := by rw [dispatchFrame_shape]
@[simp] theorem State.dispatchFrame_msgId : (s.dispatchFrame f).msgId = s.msgId := by rw [dispatchFrame_shape]
@[simp] theorem State.dispatchFrame_cksum : (s.dispatchFrame f).cksum = s.cksum := by rw [dispatchFrame_shape]
@[simp] theorem State.dispatchFrame_mem : (s.dispatchFrame f).mem = s.mem := by rw [dispatchFrame_shape]
@[simp] theorem State.dispatchFrame_cursor : (s.dispatchFrame f).cursor = s.cursor := by rw [dispatchFrame_shape]
@[simp] theorem State.dispatchFrame_catalog : (s.dispatchFrame f).catalog = s.catalog := by rw [dispatchFrame_shape]
@[simp] theorem State.dispatchFrame_input : (s.dispatchFrame f).input = s.input := by rw [dispatchFrame_shape]
@[simp] theorem State.dispatchFrame_frameOut : (s.dispatchFrame f).frameOut = s.frameOut := by rw [dispatchFrame_shape]
@[simp] theorem State.dispatchFrame_serialOut : (s.dispatchFrame f).serialOut = s.serialOut := by rw [dispatchFrame_shape]
@[simp] theorem State.dispatchFrame_checksumOut : (s.dispatchFrame f).checksumOut = s.checksumOut := by rw [dispatchFrame_shape]
@[simp] theorem State.dispatchFrame_buf : (s.dispatchFrame f).buf? = s.buf? := by simp [State.buf?]

end DispatchFrame

/-- Everything an operation of the dispatch stage can do when it answers a next state. -/
theorem State.dispatchStep_next {selected : Frame → Bool} {eff : Frame → State → State} :
    s.dispatchStep selected eff = .next t ↔
      ∃ f, s.frameOut = some f ∧ s.dispatchOut = none ∧ selected f = true ∧ eff f s.clearDiag = t := by
  unfold State.dispatchStep State.stageFrame?
  by_cases h : s.dispatchOut = none
  · cases hf : s.frameOut with
    | none => simp [h]
    | some f => by_cases hs : selected f = true <;> simp [h, hs]
  · simp [h]

/-! ### One step -/

/-- When what is presented decodes to an operation, the step is that operation (R7). -/
theorem step_of_decode {i : Instr} (h : decodePresented s.keyRegs s.nextPresented = .ok i) : step s = exec i s.consume := by
  simp [step, h]

/-- A FEED step runs the operation its step key selects (R52). -/
theorem step_feed {b : Byte} {rest : List Presented} {i : Instr} (h : s.input = feedCommand b :: rest)
    (hd : decodeKey s.keyRegs (stepKeyOf s.state b) = .ok i) : step s = exec i s.consume :=
  step_of_decode (by simpa [State.nextPresented, h] using hd)

/-- Everything a step can do when it answers a next state: it ran one operation. -/
theorem step_next (h : step s = .next t) :
    ∃ i, decodePresented s.keyRegs s.nextPresented = .ok i ∧ exec i s.consume = .next t := by
  unfold step at h
  split at h
  · exact ⟨_, ‹_›, h⟩
  · cases h

end Sys2Proof.Machine
end

