-- ==== Sys2Proof/Laws/Exec.lean ====
section
/-! SUPPORT. What one operation can do, said once: if `exec` answers a next state, the operation was one of the rules of
`Ran`, with its conditions and the whole next state. Later proofs split on it instead of unfolding the meanings. -/

namespace Sys2Proof.Machine

/-- The frame event of D.CK.OK on `s`, `buf` being the buffer's contents. -/
def closing (s : State) (buf : List Byte) : Frame := ⟨s.msgId, s.lengthExpected, buf⟩

/-- The state on which D.CK.OK runs the dispatch stage. -/
def closed (s : State) (f : Frame) : State :=
  { s with state := .awaitSync1, frameOut := some f, dispatchOut := none, diag := 0#3, events := s.events ++ [.frame f] }

/-- Operation, condition and next state, rule by rule (R68 to R79, R86, R90, R102 to R106). -/
inductive Ran (s : State) : Instr → State → Prop
  | sync1Hit : s.wf = true → s.state = .awaitSync1 →
      Ran s .dSync1Hit { s with state := .awaitSync2, frameOut := none, dispatchOut := none, diag := 0#3 }
  | sync1Miss (b) : s.wf = true → s.state = .awaitSync1 → b ≠ 0x24#8 →
      Ran s (.dSync1Miss b) { s with frameOut := none, dispatchOut := none, diag := 1#3 }
  | sync2Hit : s.wf = true → s.state = .awaitSync2 →
      Ran s .dSync2Hit { s with state := .awaitDirection, frameOut := none, dispatchOut := none, diag := 0#3 }
  | sync2Miss (b) : s.wf = true → s.state = .awaitSync2 → b ≠ 0x4D#8 →
      Ran s (.dSync2Miss b) { s with state := .awaitSync1, frameOut := none, dispatchOut := none, diag := 1#3 }
  | dir (b) : s.wf = true → s.state = .awaitDirection →
      Ran s (.dDir b) { s with state := .awaitLength, frameOut := none, dispatchOut := none, diag := 0#3 }
  | len (b) : s.wf = true → s.state = .awaitLength →
      Ran s (.dLen b) { s with state := .awaitId, lengthExpected := b, cksum := b, lengthReceived := 0#8,
                               frameOut := none, dispatchOut := none, diag := 0#3 }
  | idNz (b) : s.wf = true → s.state = .awaitId → s.lengthExpected ≠ 0#8 →
      Ran s (.dIdNz b) { s with state := .awaitPayload, msgId := b, cksum := s.cksum ^^^ b, cursor := 0,
                                frameOut := none, dispatchOut := none, diag := 0#3 }
  | idZ (b) : s.wf = true → s.state = .awaitId → s.lengthExpected = 0#8 →
      Ran s (.dIdZ b) { s with state := .awaitChecksum, msgId := b, cksum := s.cksum ^^^ b, cursor := 0,
                               frameOut := none, dispatchOut := none, diag := 0#3 }
  | payMore (b) : s.wf = true → s.state = .awaitPayload → s.lengthReceived.toNat + 1 ≠ s.lengthExpected.toNat →
      s.cursor < Config.bufCap →
      Ran s (.dPayMore b) { s with cksum := s.cksum ^^^ b, lengthReceived := s.lengthReceived + 1#8,
                                   mem := s.mem.put s.cursor b, cursor := s.cursor + 1,
                                   frameOut := none, dispatchOut := none, diag := 0#3 }
  | payLast (b) : s.wf = true → s.state = .awaitPayload → s.lengthReceived.toNat + 1 = s.lengthExpected.toNat →
      s.cursor < Config.bufCap →
      Ran s (.dPayLast b) { s with state := .awaitChecksum, cksum := s.cksum ^^^ b,
                                   lengthReceived := s.lengthReceived + 1#8, mem := s.mem.put s.cursor b,
                                   cursor := s.cursor + 1, frameOut := none, dispatchOut := none, diag := 0#3 }
  | ckOk (b buf) : s.wf = true → s.state = .awaitChecksum → b = s.cksum → s.buf? = some buf →
      buf.length = s.lengthExpected.toNat →
      Ran s (.dCkOk b) ((closed s (closing s buf)).dispatchFrame (closing s buf))
  | ckBad (b) : s.wf = true → s.state = .awaitChecksum → b ≠ s.cksum →
      Ran s (.dCkBad b) { s with state := .awaitSync1, frameOut := none, dispatchOut := none, diag := 2#3 }
  | reset : s.wf = true →
      Ran s .reset { s with state := .awaitSync1, lengthExpected := 0#8, lengthReceived := 0#8, msgId := 0#8,
                            cksum := 0#8, cursor := 0, frameOut := none, dispatchOut := none, diag := 0#3 }
  | idle : s.wf = true → Ran s .idle { s with frameOut := none, dispatchOut := none, diag := 0#3 }
  | checksum (l) : Ran s (.checksum l) { s with checksumOut := checksumOf l }
  | serialize (id p) : p.length ≤ 255 → Ran s (.serialize id p) { s with serialOut := wireFrame Config.dirReq id p }
  | x121 (f) : s.frameOut = some f → s.dispatchOut = none → f.id = 0x79#8 →
      fieldCountOf s.catalog f.id = some 6 → Ran s .x121 (s.clearDiag.deliverFields 6 f)
  | x122 (f) : s.frameOut = some f → s.dispatchOut = none → f.id = 0x7A#8 →
      fieldCountOf s.catalog f.id = some 3 → Ran s .x122 (s.clearDiag.deliverFields 3 f)
  | xUnknown (f) : s.frameOut = some f → s.dispatchOut = none → fieldCountOf s.catalog f.id = none →
      Ran s (.xUnknown f.id) (s.clearDiag.raise .unknownId)

/-- Everything an operation can do when it answers a next state. -/
theorem exec_ran {i : Instr} {s t : State} (h : exec i s = .next t) : Ran s i t := by
  cases i with
  | dSync1Hit =>
    simp only [exec, execDSync1Hit] at h
    obtain ⟨hw, hs, h⟩ := State.decoderStep_next.mp h
    cases h; exact .sync1Hit hw (by simpa using hs)
  | dSync1Miss b =>
    simp only [exec, execDSync1Miss] at h
    obtain ⟨hw, hs, h⟩ := State.decoderStep_next.mp h
    simp [Config.sync1] at hs
    cases h; exact .sync1Miss (s := s) b hw hs.1 hs.2
  | dSync2Hit =>
    simp only [exec, execDSync2Hit] at h
    obtain ⟨hw, hs, h⟩ := State.decoderStep_next.mp h
    cases h; exact .sync2Hit hw (by simpa using hs)
  | dSync2Miss b =>
    simp only [exec, execDSync2Miss] at h
    obtain ⟨hw, hs, h⟩ := State.decoderStep_next.mp h
    simp [Config.sync2] at hs
    cases h; exact .sync2Miss b hw hs.1 hs.2
  | dDir b =>
    simp only [exec, execDDir] at h
    obtain ⟨hw, hs, h⟩ := State.decoderStep_next.mp h
    cases h; exact .dir b hw (by simpa using hs)
  | dLen b =>
    simp only [exec, execDLen] at h
    obtain ⟨hw, hs, h⟩ := State.decoderStep_next.mp h
    cases h; exact .len b hw (by simpa using hs)
  | dIdNz b =>
    simp only [exec, execDIdNz] at h
    obtain ⟨hw, hs, h⟩ := State.decoderStep_next.mp h
    simp [KeyRegs.hasPayload] at hs
    cases h; exact .idNz b hw hs.1 hs.2
  | dIdZ b =>
    simp only [exec, execDIdZ] at h
    obtain ⟨hw, hs, h⟩ := State.decoderStep_next.mp h
    simp [KeyRegs.hasPayload] at hs
    cases h; exact .idZ b hw hs.1 hs.2
  | dPayMore b =>
    simp only [exec, execDPayMore] at h
    obtain ⟨hw, hs, h⟩ := State.decoderStep_next.mp h
    obtain ⟨hc, h⟩ := State.bufAppend_next h
    simp [KeyRegs.isLastByte] at hs
    cases h; exact .payMore b hw hs.1 hs.2 hc
  | dPayLast b =>
    simp only [exec, execDPayLast] at h
    obtain ⟨hw, hs, h⟩ := State.decoderStep_next.mp h
    obtain ⟨hc, h⟩ := State.bufAppend_next h
    simp [KeyRegs.isLastByte] at hs
    cases h; exact .payLast b hw hs.1 hs.2 hc
  | dCkOk b =>
    simp only [exec, execDCkOk] at h
    obtain ⟨hw, hs, h⟩ := State.decoderStep_next.mp h
    simp [KeyRegs.checksumMatches] at hs
    obtain ⟨buf, hb, -, hl, -⟩ := State.wf_awaitChecksum hw hs.1
    simp only [State.clearOutputs_buf, hb] at h
    cases h; exact .ckOk b buf hw hs.1 hs.2 hb hl
  | dCkBad b =>
    simp only [exec, execDCkBad] at h
    obtain ⟨hw, hs, h⟩ := State.decoderStep_next.mp h
    simp [KeyRegs.checksumMatches] at hs
    cases h; exact .ckBad b hw hs.1 hs.2
  | reset =>
    simp only [exec, execReset] at h
    obtain ⟨hw, -, h⟩ := State.decoderStep_next.mp h
    cases h; exact .reset hw
  | idle =>
    simp only [exec, execIdle] at h
    obtain ⟨hw, -, h⟩ := State.decoderStep_next.mp h
    cases h; exact .idle hw
  | checksum l => cases h; exact .checksum l
  | serialize id p =>
    simp only [exec, execSerialize] at h
    by_cases hp : p.length ≤ Config.lenMax
    · rw [if_pos hp] at h; cases h; exact .serialize id p hp
    · rw [if_neg hp] at h; cases h
  | x121 =>
    simp only [exec, execX121] at h
    obtain ⟨f, hf, hd, hs, rfl⟩ := State.dispatchStep_next.mp h
    simp at hs
    exact .x121 f hf hd hs.1 (by rw [hs.1]; exact hs.2)
  | x122 =>
    simp only [exec, execX122] at h
    obtain ⟨f, hf, hd, hs, rfl⟩ := State.dispatchStep_next.mp h
    simp at hs
    exact .x122 f hf hd hs.1 (by rw [hs.1]; exact hs.2)
  | xUnknown id =>
    simp only [exec, execXUnknown] at h
    obtain ⟨f, hf, hd, hs, rfl⟩ := State.dispatchStep_next.mp h
    simp at hs
    obtain ⟨rfl, hn⟩ := hs
    exact .xUnknown f hf hd hn

/-- A standing `diag` influences no operation of the Decoder or of the dispatch stage (R116). -/
theorem exec_ignores_diag {i : Instr} (hs : ∀ id p, i ≠ .serialize id p) (hc : ∀ l, i ≠ .checksum l) (s : State)
    (d : BitVec 3) : exec i { s with diag := d } = exec i s := by
  cases i with
  | serialize id p => exact absurd rfl (hs id p)
  | checksum l => exact absurd rfl (hc l)
  | _ => rfl

/-- Taking a presented operation. -/
theorem State.consume_of_input {s : State} {p : Presented} {rest : List Presented} (h : s.input = p :: rest) :
    s.consume = { s with input := rest } := by
  simp [State.consume, h]

/-- Everything a FEED step can do when it answers a next state. -/
theorem step_feed_ran {s t : State} {b : Byte} {rest : List Presented} (h : s.input = feedCommand b :: rest)
    (hs : step s = .next t) :
    ∃ i, decodeKey s.keyRegs (stepKeyOf s.state b) = .ok i ∧ Ran { s with input := rest } i t := by
  obtain ⟨i, hd, he⟩ := step_next hs
  rw [State.consume_of_input h] at he
  exact ⟨i, by simpa [State.nextPresented, h] using hd, exec_ran he⟩

/-- `runSteps` in two parts. -/
theorem runSteps_add {m : Nat} (n : Nat) {s t : State} (h : runSteps m s = .next t) :
    runSteps (m + n) s = runSteps n t := by
  induction m generalizing s with
  | zero => simp only [runSteps, Host.Outcome.next.injEq] at h; subst h; simp
  | succ m ih =>
    rw [show m + 1 + n = (m + n) + 1 by omega]
    simp only [runSteps] at h ⊢
    cases hs : step s with
    | next u => simp only [hs] at h ⊢; exact ih h
    | fault r => simp [hs] at h
    | refused r => simp [hs] at h

/-- A run that completes, cut in two. -/
theorem runSteps_split {m n : Nat} {s t : State} (h : runSteps (m + n) s = .next t) :
    ∃ u, runSteps m s = .next u ∧ runSteps n u = .next t := by
  induction m generalizing s with
  | zero => exact ⟨s, rfl, by simpa using h⟩
  | succ m ih =>
    rw [show m + 1 + n = (m + n) + 1 by omega] at h
    simp only [runSteps] at h ⊢
    cases hs : step s with
    | next u => simp only [hs] at h ⊢; exact ih h
    | fault r => simp [hs] at h
    | refused r => simp [hs] at h

end Sys2Proof.Machine
end

