-- ==== Sys2Proof/Laws/PerInstr.lean ====
section
/-! SUPPORT. Per-instruction laws about the operations as syntax. Family TableRow: the word the encoder writes for a
well-formed operation has the fixed bits of its row in opcode_table.json; the rows are copied from the table here, apart
from the decoder's own. -/

namespace Sys2Proof.Laws

/-- The match and mask of an operation's row, by the row's word format; a CALL row has no code. -/
inductive RowBits where
  | feed (pat mask : BitVec 11)
  | cmd (pat mask : BitVec 10)
  | dispatch (pat mask : BitVec 8)
  | call
  deriving DecidableEq, Repr

/-- The rows of opcode_table.json. -/
def rowBits : Instr → RowBits
  | .dSync1Hit => .feed 0x024#11 0x7FF#11
  | .dSync1Miss _ => .feed 0x000#11 0x700#11
  | .dSync2Hit => .feed 0x14D#11 0x7FF#11
  | .dSync2Miss _ => .feed 0x100#11 0x700#11
  | .dDir _ => .feed 0x200#11 0x700#11
  | .dLen _ => .feed 0x300#11 0x700#11
  | .dIdNz _ => .feed 0x400#11 0x700#11
  | .dIdZ _ => .feed 0x400#11 0x700#11
  | .dPayMore _ => .feed 0x500#11 0x700#11
  | .dPayLast _ => .feed 0x500#11 0x700#11
  | .dCkOk _ => .feed 0x600#11 0x700#11
  | .dCkBad _ => .feed 0x600#11 0x700#11
  | .reset => .cmd 0x200#10 0x200#10
  | .idle => .cmd 0x000#10 0x300#10
  | .checksum _ => .call
  | .serialize _ _ => .call
  | .x121 => .dispatch 0x79#8 0xFF#8
  | .x122 => .dispatch 0x7A#8 0xFF#8
  | .xUnknown _ => .dispatch 0x00#8 0x00#8

/-- A word has a row's fixed bits: `(word & mask) == match`. -/
def hasRowBits : RowBits → OpWord → Bool
  | .feed p m, .stepKey k => k &&& m == p
  | .cmd p m, .presented (.command c) => c &&& m == p
  | .dispatch p m, .frameId id => id &&& m == p
  | .call, .presented (.callSerialize _ _) => true
  | .call, .applyChecksum _ => true
  | _, _ => false

end Sys2Proof.Laws

namespace Sys2Proof.Laws.TableRow

/-- The encoder writes the fixed bits of the operation's row. -/
def Statement (i : Instr) : Prop := i.wf = true → hasRowBits (rowBits i) (encode i) = true

/-- A row that fixes the state code alone. -/
theorem stateRow (st : SeqState) (b : Byte) (p : BitVec 11) (hp : p = st.code ++ 0#8) :
    (stepKeyOf st b &&& 0x700#11 == p) = true := by
  rw [hp, maskState_stepKeyOf]
  simp

theorem dSync1Hit : Statement .dSync1Hit := fun _ => rfl
theorem dSync1Miss (b : Byte) : Statement (.dSync1Miss b) := fun _ => stateRow .awaitSync1 b _ rfl
theorem dSync2Hit : Statement .dSync2Hit := fun _ => rfl
theorem dSync2Miss (b : Byte) : Statement (.dSync2Miss b) := fun _ => stateRow .awaitSync2 b _ rfl
theorem dDir (b : Byte) : Statement (.dDir b) := fun _ => stateRow .awaitDirection b _ rfl
theorem dLen (b : Byte) : Statement (.dLen b) := fun _ => stateRow .awaitLength b _ rfl
theorem dIdNz (b : Byte) : Statement (.dIdNz b) := fun _ => stateRow .awaitId b _ rfl
theorem dIdZ (b : Byte) : Statement (.dIdZ b) := fun _ => stateRow .awaitId b _ rfl
theorem dPayMore (b : Byte) : Statement (.dPayMore b) := fun _ => stateRow .awaitPayload b _ rfl
theorem dPayLast (b : Byte) : Statement (.dPayLast b) := fun _ => stateRow .awaitPayload b _ rfl
theorem dCkOk (b : Byte) : Statement (.dCkOk b) := fun _ => stateRow .awaitChecksum b _ rfl
theorem dCkBad (b : Byte) : Statement (.dCkBad b) := fun _ => stateRow .awaitChecksum b _ rfl
theorem reset : Statement .reset := fun _ => rfl
theorem idle : Statement .idle := fun _ => rfl
theorem checksum (bytes : List Byte) : Statement (.checksum bytes) := fun _ => rfl
theorem serialize (id : Byte) (payload : List Byte) : Statement (.serialize id payload) := fun _ => rfl
theorem x121 : Statement .x121 := fun _ => rfl
theorem x122 : Statement .x122 := fun _ => rfl
theorem xUnknown (id : Byte) : Statement (.xUnknown id) := fun _ => by
  simp [rowBits, hasRowBits, encode]

end Sys2Proof.Laws.TableRow
end

