-- ==== Sys2Proof/Tests/Slice0.lean ====
section
/-! SUPPORT. Tests on fixed values, and a witness for the hypotheses of every statement. Expected values come from
spec/95_test_vectors.md (V and T numbers, program steps P1 to P5) and from the examples in the rules. -/

namespace Sys2Proof.Tests

open Sys2Proof Sys2Proof.Machine

/-! ### Helpers -/

/-- A Decoder state as 95_test_vectors.md writes it: `(state, length_expected, length_received, msg_id, cksum, buf)`. -/
def dec (st : SeqState) (le lr id ck : Byte) (buf : List Byte) : State :=
  { State.reset with
    state := st, lengthExpected := le, lengthReceived := lr, msgId := id, cksum := ck
    mem := (List.range buf.length).map fun k => (k, buf.getD k 0#8), cursor := buf.length }

/-- FEED `b` presented to `s`, and nothing after it. -/
def feeding (b : Byte) (s : State) : State := { s with input := [feedCommand b] }

/-- The outcome is a next state with the property `p`. -/
def nextIs (r : Result) (p : State → Bool) : Bool :=
  match r with
  | .next t => p t
  | .fault _ => false
  | .refused _ => false

theorem nextIs_elim {r : Result} {p : State → Bool} (h : nextIs r p = true) : ∃ t, r = .next t ∧ p t = true := by
  cases r with
  | next t => exact ⟨t, rfl, h⟩
  | fault _ => cases h
  | refused _ => cases h

/-- The outcome is a refusal for the reason `q`. -/
def refusedAs (r : Result) (q : Refusal) : Bool :=
  match r with
  | .next _ => false
  | .fault _ => false
  | .refused q' => q' == q

/-- The Decoder's record of `t` is the tuple, as in 95_test_vectors.md. -/
def isDec (t : State) (st : SeqState) (le lr id ck : Byte) (buf : List Byte) : Bool :=
  t.state == st && t.lengthExpected == le && t.lengthReceived == lr && t.msgId == id && t.cksum == ck && t.buf? == some buf

/-- No event in the step, and this `diag`. -/
def silent (t : State) (d : BitVec 3) : Bool := t.frameOut == none && t.dispatchOut == none && t.diag == d

/-- The payload of V2: the patterns 00000000, 3FC00000, BFC00000. -/
def attitude : List Byte := [0x00#8, 0x00#8, 0x00#8, 0x00#8, 0x00#8, 0x00#8, 0xC0#8, 0x3F#8, 0x00#8, 0x00#8, 0xC0#8, 0xBF#8]

/-- The payload of V21. -/
def channels : List Byte :=
  [0x00#8, 0x00#8, 0x80#8, 0x3F#8, 0x00#8, 0x00#8, 0x80#8, 0xBF#8, 0x00#8, 0x00#8, 0x00#8, 0x3F#8] ++
  [0x00#8, 0x00#8, 0x00#8, 0x00#8, 0x00#8, 0x00#8, 0x80#8, 0x3E#8, 0x00#8, 0x00#8, 0x00#8, 0x40#8]

/-- The fields of V43. -/
def channelFields : List Word32 :=
  [0x3F800000#32, 0xBF800000#32, 0x3F000000#32, 0x00000000#32, 0x3E800000#32, 0x40000000#32]

/-- The bytes 01, 02, …, `n`. -/
def ramp (n : Nat) : List Byte := (List.range n).map fun k => BitVec.ofNat 8 (k + 1)

/-- A state with a frame event at the dispatch stage, and a `diag` standing from earlier (R116: it influences nothing). -/
def staged (id len : Byte) (p : List Byte) : State := { State.reset with frameOut := some ⟨id, len, p⟩, diag := 2#3 }

/-- Registers under which no condition of R52 matters. -/
def anyRegs : KeyRegs := ⟨.awaitSync1, 0#8, 0#8, 0#8⟩

/-! ### WellFormed: an ill-formed term for each check -/

theorem test_wf_sync1Miss : (Instr.dSync1Miss 0x24#8).wf = false ∧ (Instr.dSync1Miss 0x25#8).wf = true := by decide
theorem test_wf_sync2Miss : (Instr.dSync2Miss 0x4D#8).wf = false ∧ (Instr.dSync2Miss 0x24#8).wf = true := by decide
theorem test_wf_serialize : (Instr.serialize 7#8 (List.replicate 256 0#8)).wf = false := by decide +kernel
theorem test_wf_serialize_most : (Instr.serialize 7#8 (List.replicate 255 0#8)).wf = true := by decide +kernel
theorem test_wf_xUnknown_121 : (Instr.xUnknown 0x79#8).wf = false := by decide
theorem test_wf_xUnknown_122 : (Instr.xUnknown 0x7A#8).wf = false ∧ (Instr.xUnknown 0x01#8).wf = true := by decide

/-! ### Decode: a word of every row, written out from R51, R52, R63 -/

theorem test_decode_sync1Hit : decode anyRegs (.stepKey 0b000_00100100#11) = .ok .dSync1Hit := rfl
theorem test_decode_sync1Miss : decode anyRegs (.stepKey 0b000_01001101#11) = .ok (.dSync1Miss 0x4D#8) := rfl
theorem test_decode_sync2Hit : decode anyRegs (.stepKey 0b001_01001101#11) = .ok .dSync2Hit := rfl
theorem test_decode_sync2Miss : decode anyRegs (.stepKey 0b001_00100100#11) = .ok (.dSync2Miss 0x24#8) := rfl
theorem test_decode_dir : decode anyRegs (.stepKey 0b010_00111110#11) = .ok (.dDir 0x3E#8) := rfl
theorem test_decode_len : decode anyRegs (.stepKey 0b011_00001100#11) = .ok (.dLen 0x0C#8) := rfl
theorem test_decode_idNz : decode ⟨.awaitId, 0x0C#8, 0#8, 0x0C#8⟩ (.stepKey 0b100_01111010#11) = .ok (.dIdNz 0x7A#8) := rfl
theorem test_decode_idZ : decode ⟨.awaitId, 0#8, 0#8, 0#8⟩ (.stepKey 0b100_01111001#11) = .ok (.dIdZ 0x79#8) := rfl
theorem test_decode_payMore :
    decode ⟨.awaitPayload, 0x0C#8, 6#8, 0x76#8⟩ (.stepKey 0b101_11000000#11) = .ok (.dPayMore 0xC0#8) := rfl
theorem test_decode_payLast :
    decode ⟨.awaitPayload, 0x0C#8, 0x0B#8, 0x49#8⟩ (.stepKey 0b101_10111111#11) = .ok (.dPayLast 0xBF#8) := rfl
theorem test_decode_ckOk :
    decode ⟨.awaitChecksum, 0#8, 0#8, 0x79#8⟩ (.stepKey 0b110_01111001#11) = .ok (.dCkOk 0x79#8) := rfl
theorem test_decode_ckBad :
    decode ⟨.awaitChecksum, 0#8, 0#8, 0x79#8⟩ (.stepKey 0b110_01111000#11) = .ok (.dCkBad 0x78#8) := rfl
theorem test_decode_illegal : decode anyRegs (.stepKey 0b111_00100100#11) = .error (.illegalStepKey 0x724#11) := rfl
theorem test_decode_reset : decode anyRegs (.presented (.command 0b11_00100100#10)) = .ok .reset := rfl
theorem test_decode_idle : decode anyRegs (.presented (.command 0b00_00100100#10)) = .ok .idle := rfl
theorem test_decode_feed : decode anyRegs (.presented (.command 0b01_00100100#10)) = .ok .dSync1Hit := rfl
theorem test_decode_checksum : decode anyRegs (.applyChecksum [0x0C#8]) = .ok (.checksum [0x0C#8]) := rfl
theorem test_decode_serialize :
    decode anyRegs (.presented (.callSerialize 0x79#8 [])) = .ok (.serialize 0x79#8 []) := rfl
theorem test_decode_x121 : decode anyRegs (.frameId 0b01111001#8) = .ok .x121 := rfl
theorem test_decode_x122 : decode anyRegs (.frameId 0b01111010#8) = .ok .x122 := rfl
theorem test_decode_xUnknown : decode anyRegs (.frameId 0b01111011#8) = .ok (.xUnknown 0x7B#8) := rfl

/-! ### The host's words (log entry 11) -/

theorem test_tableWord_feed :
    decodeTableWord 16 0x024 = some .dSync1Hit ∧ decodeTableWord 16 0x000 = some (.dSync1Miss 0#8) ∧
    decodeTableWord 16 0x14D = some .dSync2Hit ∧ decodeTableWord 16 0x400 = some (.dIdNz 0#8) ∧
    decodeTableWord 16 0x500 = some (.dPayMore 0#8) ∧ decodeTableWord 16 0x600 = some (.dCkOk 0#8) ∧
    decodeTableWord 16 0x700 = none := by decide
theorem test_tableWord_other :
    decodeTableWord 10 0x200 = some .reset ∧ decodeTableWord 10 0x000 = some .idle ∧
    decodeTableWord 8 0x79 = some .x121 ∧ decodeTableWord 8 0x7A = some .x122 ∧
    decodeTableWord 40 0x79003E4D24 = some (.serialize 0x79#8 []) := by decide
theorem test_fetch_sync1Hit : nextIs (step (State.reset.withFetchWord 16 0x024)) (·.state == .awaitSync2) = true := by decide
theorem test_fetch_idNz : nextIs (step (State.reset.withFetchWord 16 0x47A)) (·.state == .awaitPayload) = true := by decide
theorem test_fetch_payMore : nextIs (step (State.reset.withFetchWord 16 0x524)) (·.buf? == some [0x24#8]) = true := by decide
theorem test_fetch_ckOk : nextIs (step (State.reset.withFetchWord 16 0x605)) (·.frameOut == some ⟨5#8, 0#8, []⟩) = true := by
  decide
theorem test_fetch_x121 :
    nextIs (step (State.reset.withFetchWord 8 0x79)) (·.dispatchOut == some ⟨0x79#8, List.replicate 6 0#32⟩) = true := by
  decide +kernel
theorem test_fetch_xUnknown : nextIs (step (State.reset.withFetchWord 8 0x01)) (·.diag == 3#3) = true := by decide
theorem test_fetch_serialize :
    nextIs (step (State.reset.withFetchWord 40 0x79003E4D24))
      (·.serialOut == [0x24#8, 0x4D#8, 0x3E#8, 0x00#8, 0x79#8, 0x79#8]) = true := by decide

/-! ### One step each (part D of 95_test_vectors.md) -/

theorem test_sync1Hit_T1 : nextIs (step (feeding 0x24#8 (dec .awaitSync1 1#8 2#8 3#8 4#8 [])))
    (fun t => isDec t .awaitSync2 1#8 2#8 3#8 4#8 [] && silent t 0#3) = true := by decide
theorem test_sync1Miss_T3 : nextIs (step (feeding 0x4D#8 (dec .awaitSync1 1#8 2#8 3#8 4#8 [])))
    (fun t => isDec t .awaitSync1 1#8 2#8 3#8 4#8 [] && silent t 1#3) = true := by decide
theorem test_sync2Hit_T5 : nextIs (step (feeding 0x4D#8 (dec .awaitSync2 1#8 2#8 3#8 4#8 [])))
    (fun t => isDec t .awaitDirection 1#8 2#8 3#8 4#8 [] && silent t 0#3) = true := by decide
theorem test_sync2Miss_T6 : nextIs (step (feeding 0x24#8 (dec .awaitSync2 1#8 2#8 3#8 4#8 [])))
    (fun t => isDec t .awaitSync1 1#8 2#8 3#8 4#8 [] && silent t 1#3) = true := by decide
theorem test_dir_T10 : nextIs (step (feeding 0x24#8 (dec .awaitDirection 1#8 2#8 3#8 4#8 [])))
    (fun t => isDec t .awaitLength 1#8 2#8 3#8 4#8 [] && silent t 0#3) = true := by decide
theorem test_len_T12 : nextIs (step (feeding 0xFF#8 (dec .awaitLength 0x0C#8 0x0C#8 0x7A#8 0xF6#8 attitude)))
    (fun t => isDec t .awaitId 0xFF#8 0#8 0x7A#8 0xFF#8 attitude && silent t 0#3) = true := by decide
theorem test_idNz_T16 : nextIs (step (feeding 0xFF#8 (dec .awaitId 0xFF#8 0#8 0x7A#8 0xFF#8 attitude)))
    (fun t => isDec t .awaitPayload 0xFF#8 0#8 0xFF#8 0#8 [] && silent t 0#3) = true := by decide
theorem test_idZ_T14 : nextIs (step (feeding 0x79#8 (dec .awaitId 0#8 0#8 0#8 0#8 [])))
    (fun t => isDec t .awaitChecksum 0#8 0#8 0x79#8 0x79#8 [] && silent t 0#3) = true := by decide
theorem test_payMore_T17 : nextIs (step (feeding 3#8 (dec .awaitPayload 2#8 0#8 3#8 1#8 [])))
    (fun t => isDec t .awaitPayload 2#8 1#8 3#8 2#8 [3#8] && silent t 0#3) = true := by decide
/-- The count of T20 and T21: it reaches FF and does not wrap. -/
theorem test_count_T21 :
    (State.countByte 0xFF#8 (dec .awaitPayload 0xFF#8 0xFE#8 7#8 7#8 [])).lengthReceived = 0xFF#8 := by decide
theorem test_payLast_T19 : nextIs (step (feeding 0xAB#8 (dec .awaitPayload 1#8 0#8 5#8 4#8 [])))
    (fun t => isDec t .awaitChecksum 1#8 1#8 5#8 0xAF#8 [0xAB#8] && silent t 0#3) = true := by decide
theorem test_payLast_T18 : nextIs (step (feeding 1#8 (dec .awaitPayload 2#8 1#8 3#8 2#8 [3#8])))
    (fun t => isDec t .awaitChecksum 2#8 2#8 3#8 3#8 [3#8, 1#8] && silent t 0#3) = true := by decide
theorem test_ckOk_T26 : nextIs (step (feeding 0xF6#8 (dec .awaitChecksum 0x0C#8 0x0C#8 0x7A#8 0xF6#8 attitude)))
    (fun t => isDec t .awaitSync1 0x0C#8 0x0C#8 0x7A#8 0xF6#8 attitude && t.frameOut == some ⟨0x7A#8, 0x0C#8, attitude⟩
      && t.dispatchOut == some ⟨0x7A#8, [0#32, 0x3FC00000#32, 0xBFC00000#32]⟩ && t.diag == 0#3) = true := by decide
theorem test_ckOk_T22 : nextIs (step (feeding 0x79#8 (dec .awaitChecksum 0#8 0#8 0x79#8 0x79#8 [])))
    (fun t => isDec t .awaitSync1 0#8 0#8 0x79#8 0x79#8 [] && t.frameOut == some ⟨0x79#8, 0#8, []⟩
      && t.dispatchOut == none && t.diag == 4#3 && t.dispatchFault) = true := by decide
theorem test_ckBad_T25 : nextIs (step (feeding 0x24#8 (dec .awaitChecksum 1#8 1#8 1#8 0#8 [0#8])))
    (fun t => isDec t .awaitSync1 1#8 1#8 1#8 0#8 [0#8] && silent t 2#3) = true := by decide
theorem test_reset_mid_frame : nextIs (exec .reset (dec .awaitPayload 0x0C#8 7#8 0x7A#8 0xB6#8 (attitude.take 7)))
    (fun t => isDec t .awaitSync1 0#8 0#8 0#8 0#8 [] && silent t 0#3) = true := by decide
theorem test_idle_R106 : nextIs (exec .idle (dec .awaitId 0x0C#8 0#8 9#8 0x0C#8 []))
    (fun t => isDec t .awaitId 0x0C#8 0#8 9#8 0x0C#8 [] && silent t 0#3) = true := by decide
theorem test_checksum_V14 :
    nextIs (exec (.checksum ([0x0C#8, 0x7A#8] ++ attitude)) State.reset) (·.checksumOut == 0xF6#8) = true := by decide
theorem test_checksum_V13c :
    nextIs (exec (.checksum [0x12#8, 0x34#8, 0x56#8]) State.reset) (·.checksumOut == 0x70#8) = true := by decide
theorem test_serialize_V20 : nextIs (exec (.serialize 0x7A#8 attitude) State.reset)
    (·.serialOut == [0x24#8, 0x4D#8, 0x3E#8, 0x0C#8, 0x7A#8] ++ attitude ++ [0xF6#8]) = true := by decide
theorem test_serialize_V19 : nextIs (exec (.serialize 7#8 (ramp 255)) State.reset)
    (fun t => t.serialOut.length == 261 && t.serialOut.take 5 == [0x24#8, 0x4D#8, 0x3E#8, 0xFF#8, 7#8]
      && t.serialOut.drop 260 == [0xF8#8]) = true := by decide +kernel
theorem test_x121_R102 : nextIs (exec .x121 (staged 0x79#8 0x18#8 channels))
    (fun t => t.dispatchOut == some ⟨0x79#8, channelFields⟩ && t.diag == 0#3) = true := by decide
theorem test_x121_V41 : nextIs (exec .x121 (staged 0x79#8 0#8 []))
    (fun t => t.dispatchOut == none && t.diag == 4#3 && t.dispatchFault) = true := by decide
theorem test_x122_V40 : nextIs (exec .x122 (staged 0x7A#8 0x0C#8 attitude))
    (·.dispatchOut == some ⟨0x7A#8, [0#32, 0x3FC00000#32, 0xBFC00000#32]⟩) = true := by decide
theorem test_x122_V44 : nextIs (exec .x122 (staged 0x7A#8 8#8 (attitude.take 8)))
    (fun t => t.dispatchOut == none && t.diag == 4#3 && t.dispatchFault) = true := by decide
theorem test_xUnknown_R104 : nextIs (exec (.xUnknown 1#8) (staged 1#8 1#8 [0xAA#8]))
    (fun t => t.dispatchOut == none && t.diag == 3#3 && !t.dispatchFault) = true := by decide
theorem test_fields_V46 : cutFields 6 channels = some channelFields ∧ layFields channelFields = channels := by decide

/-! ### Witnesses: a state and operands that meet the hypotheses of each statement together -/

/-- Both clauses of `Sync1HitAdvancesToSync2`. -/
theorem witness_sync1Hit : let s := feeding 0x24#8 State.reset
    s.wf = true ∧ s.state = .awaitSync1 ∧ s.input = feedCommand 0x24#8 :: [] := by decide
/-- The byte before 0x24, and 0x4D. -/
theorem witness_sync1Miss : let s := feeding 0x23#8 State.reset
    s.wf = true ∧ s.state = .awaitSync1 ∧ (0x23#8 : Byte) ≠ 0x24#8 ∧ (0x4D#8 : Byte) ≠ 0x24#8 ∧
    s.input = feedCommand 0x23#8 :: [] := by decide
theorem witness_sync2Hit : let s := feeding 0x4D#8 (dec .awaitSync2 0#8 0#8 0#8 0#8 [])
    s.wf = true ∧ s.state = .awaitSync2 ∧ s.input = feedCommand 0x4D#8 :: [] := by decide
theorem witness_sync2Miss : let s := feeding 0x24#8 (dec .awaitSync2 0#8 0#8 0#8 0#8 [])
    s.wf = true ∧ s.state = .awaitSync2 ∧ (0x24#8 : Byte) ≠ 0x4D#8 ∧ s.input = feedCommand 0x24#8 :: [] := by decide
theorem witness_dir : let s := feeding 0x00#8 (dec .awaitDirection 0#8 0#8 0#8 0#8 [])
    s.wf = true ∧ s.state = .awaitDirection ∧ s.input = feedCommand 0x00#8 :: [] := by decide
theorem witness_len : let s := feeding 0xFF#8 (dec .awaitLength 0x0C#8 0x0C#8 0x7A#8 0xF6#8 attitude)
    s.wf = true ∧ s.state = .awaitLength ∧ s.input = feedCommand 0xFF#8 :: [] := by decide
/-- The smallest length with a payload. -/
theorem witness_idNz : let s := feeding 0x01#8 (dec .awaitId 1#8 0#8 0#8 1#8 [])
    s.wf = true ∧ s.state = .awaitId ∧ s.lengthExpected ≠ 0#8 ∧ s.input = feedCommand 0x01#8 :: [] := by decide
theorem witness_idZ : let s := feeding 0x79#8 (dec .awaitId 0#8 0#8 0#8 0#8 [])
    s.wf = true ∧ s.state = .awaitId ∧ s.lengthExpected = 0#8 ∧ s.input = feedCommand 0x79#8 :: [] := by decide
theorem witness_payMore : let s := feeding 3#8 (dec .awaitPayload 2#8 0#8 3#8 1#8 [])
    s.wf = true ∧ s.state = .awaitPayload ∧ s.lengthReceived.toNat + 1 ≠ s.lengthExpected.toNat ∧ s.buf? = some [] ∧
    s.input = feedCommand 3#8 :: [] := by decide
theorem witness_payLast : let s := feeding 1#8 (dec .awaitPayload 2#8 1#8 3#8 2#8 [3#8])
    s.wf = true ∧ s.state = .awaitPayload ∧ s.lengthReceived.toNat + 1 = s.lengthExpected.toNat ∧ s.buf? = some [3#8] ∧
    s.input = feedCommand 1#8 :: [] := by decide
/-- The case of `GoodChecksumDeliversTheFrame` with an identifier the catalog does not know. -/
theorem witness_ckOk_unknown : let s := feeding 0#8 (dec .awaitChecksum 1#8 1#8 1#8 0#8 [0#8])
    s.wf = true ∧ s.state = .awaitChecksum ∧ 0#8 = s.cksum ∧ s.buf? = some [0#8] ∧ fieldCountOf s.catalog s.msgId = none ∧
    s.input = feedCommand 0#8 :: [] := by decide
/-- The case with a known identifier and a matching length. -/
theorem witness_ckOk_fields : let s := feeding 0xF6#8 (dec .awaitChecksum 0x0C#8 0x0C#8 0x7A#8 0xF6#8 attitude)
    s.wf = true ∧ s.state = .awaitChecksum ∧ 0xF6#8 = s.cksum ∧ s.buf? = some attitude ∧
    fieldCountOf s.catalog s.msgId = some 3 ∧ attitude.length = 4 * 3 := by decide
/-- The case with a known identifier and another length. -/
theorem witness_ckOk_mismatch : let s := feeding 0x79#8 (dec .awaitChecksum 0#8 0#8 0x79#8 0x79#8 [])
    s.wf = true ∧ s.state = .awaitChecksum ∧ 0x79#8 = s.cksum ∧ s.buf? = some [] ∧
    fieldCountOf s.catalog s.msgId = some 6 ∧ ([] : List Byte).length ≠ 4 * 6 := by decide
theorem witness_ckBad : let s := feeding 0x78#8 (dec .awaitChecksum 0#8 0#8 0x79#8 0x79#8 [])
    s.wf = true ∧ s.state = .awaitChecksum ∧ (0x78#8 : Byte) ≠ s.cksum ∧ s.input = feedCommand 0x78#8 :: [] := by decide
/-- RESET in mid-frame with a byte on the port. -/
theorem witness_reset : let s : State :=
      { dec .awaitPayload 2#8 1#8 3#8 2#8 [3#8] with input := [.command (commandWord true true 0x24#8)] }
    s.wf = true ∧ s.input = .command (commandWord true true 0x24#8) :: [] := by decide
theorem witness_idle : let s : State :=
      { dec .awaitPayload 2#8 1#8 3#8 2#8 [3#8] with input := [.command (commandWord false false 0x24#8)] }
    s.wf = true ∧ s.input = .command (commandWord false false 0x24#8) :: [] := by decide
theorem witness_serialize : let s : State := { State.reset with input := [.callSerialize 7#8 (ramp 255)] }
    (ramp 255).length ≤ 255 ∧ s.input = .callSerialize 7#8 (ramp 255) :: [] := by decide +kernel
theorem witness_overlong : 255 < (List.replicate 256 (0#8 : Byte)).length := by
  rw [List.length_replicate]; decide
/-- `p.length = 24`. -/
theorem witness_x121_match : let s := staged 0x79#8 24#8 channels
    s.frameOut = some ⟨0x79#8, 24#8, channels⟩ ∧ s.dispatchOut = none ∧
    fieldCountOf s.catalog 0x79#8 = some 6 ∧ channels.length = 24 := by decide
/-- `p.length = 23`. -/
theorem witness_x121_mismatch : let s := staged 0x79#8 23#8 (channels.take 23)
    s.frameOut = some ⟨0x79#8, 23#8, channels.take 23⟩ ∧ s.dispatchOut = none ∧
    fieldCountOf s.catalog 0x79#8 = some 6 ∧ (channels.take 23).length ≠ 24 := by decide
/-- `p.length = 12`. -/
theorem witness_x122_match : let s := staged 0x7A#8 12#8 attitude
    s.frameOut = some ⟨0x7A#8, 12#8, attitude⟩ ∧ s.dispatchOut = none ∧
    fieldCountOf s.catalog 0x7A#8 = some 3 ∧ attitude.length = 12 := by decide
/-- `p.length = 13`. -/
theorem witness_x122_mismatch : let s := staged 0x7A#8 13#8 (channels.take 13)
    s.frameOut = some ⟨0x7A#8, 13#8, channels.take 13⟩ ∧ s.dispatchOut = none ∧
    fieldCountOf s.catalog 0x7A#8 = some 3 ∧ (channels.take 13).length ≠ 12 := by decide
theorem witness_xUnknown : let s := staged 1#8 1#8 [0xAA#8]
    s.frameOut = some ⟨1#8, 1#8, [0xAA#8]⟩ ∧ s.dispatchOut = none ∧ fieldCountOf s.catalog 1#8 = none := by
  decide
theorem witness_dispatchRuns : let s := dec .awaitChecksum 0x0C#8 0x0C#8 0x7A#8 0xF6#8 attitude
    s.wf = true ∧ s.state = .awaitChecksum ∧ 0xF6#8 = s.cksum ∧ s.buf? = some attitude ∧
    s.catalog = Config.testedCatalog := by decide
/-- The clauses of `OperationCompletesWhereSelected`. -/
theorem witness_completes : State.reset.wf = true ∧ selectedIn State.reset .dSync1Hit = true ∧
    selectedIn State.reset .dSync2Hit = false ∧
    selectedIn State.reset (.serialize 7#8 (List.replicate 256 0#8)) = false := by decide +kernel
/-- `selectedIn` holds somewhere for the three dispatch operations, in well-formed states. -/
theorem witness_completes_dispatch : (staged 0x79#8 24#8 channels).wf = true ∧
    selectedIn (staged 0x79#8 24#8 channels) .x121 = true ∧ selectedIn (staged 0x7A#8 12#8 attitude) .x122 = true ∧
    selectedIn (staged 1#8 1#8 [0xAA#8]) (.xUnknown 1#8) = true := by decide
/-- Both clauses of `StepRunsTheDecodedOperation`. -/
theorem witness_stepRuns : let s := feeding 0x24#8 State.reset
    s.input = feedCommand 0x24#8 :: [] ∧ decodePresented s.keyRegs (feedCommand 0x24#8) = .ok .dSync1Hit ∧
    State.reset.input = [] := ⟨rfl, rfl, rfl⟩
theorem witness_decodeOfEncode : (Instr.dIdZ 0x79#8).wf = true ∧ (Instr.dIdZ 0x79#8).cond ⟨.awaitId, 0#8, 0#8, 0#8⟩ = true := by
  decide
/-- The last legal step key and the first illegal one. -/
theorem witness_stepKeys : (0x6FF#11).toNat < 0x700 ∧ 0x700 ≤ (0x700#11).toNat := by decide
theorem witness_commandWords : 0x200 ≤ (0x200#10).toNat ∧ (0x100 ≤ (0x1FF#10).toNat ∧ (0x1FF#10).toNat < 0x200) ∧
    (0x0FF#10).toNat < 0x100 := by decide
/-- A next state from a well-formed state (`OperationsKeepWellFormedness`, `OnlyTheListedOperationsWrite`). -/
theorem witness_exec_next : (dec .awaitPayload 2#8 0#8 3#8 1#8 []).wf = true ∧
    ∃ t, exec (.dPayMore 3#8) (dec .awaitPayload 2#8 0#8 3#8 1#8 []) = .next t ∧ (t.lengthReceived == 1#8) = true :=
  ⟨by decide, nextIs_elim (by decide)⟩
/-- `StepKeepsTheInvariant`, `StepConsumesOneAndKeepsTheCatalog`, `EventsAreTheOutputsInOrder` (a command word): a step from
a state with the invariant. -/
theorem witness_step_next : let s := feeding 0xF6#8 (dec .awaitChecksum 0x0C#8 0x0C#8 0x7A#8 0xF6#8 attitude)
    s.Inv = true ∧ s.input = .command (commandWord false true 0xF6#8) :: [] ∧
    ∃ t, step s = .next t ∧ (t.dispatchOut == some ⟨0x7A#8, [0#32, 0x3FC00000#32, 0xBFC00000#32]⟩) = true :=
  ⟨by decide, rfl, nextIs_elim (by decide)⟩
/-- `EventsAreTheOutputsInOrder`, the clause of a call. -/
theorem witness_step_call : let s : State := { State.reset with input := [.callSerialize 5#8 []] }
    s.input = .callSerialize 5#8 [] :: [] ∧ (∀ c, Presented.callSerialize 5#8 [] ≠ .command c) ∧
    ∃ t, step s = .next t ∧ (t.serialOut.length == 6) = true :=
  ⟨rfl, fun _ h => (by cases h), nextIs_elim (by decide)⟩
theorem witness_presented : State.reset.wf = true ∧ State.reset.nextPresented.legal = true ∧
    (Presented.callSerialize 7#8 (ramp 255)).legal = true := by decide +kernel
/-- An ill-formed state of code 7 and one with inconsistent counters (`IllFormedStatesAreRefused`). -/
theorem witness_illFormed : (dec .unused7 0#8 0#8 0#8 0#8 []).wf = false ∧
    (feeding 0#8 (dec .awaitPayload 1#8 1#8 0#8 0#8 [])).wf = false ∧ Instr.isDecoderOp .idle = true ∧
    refusedAs (step (feeding 0#8 (dec .awaitPayload 1#8 1#8 0#8 0#8 []))) .illFormedState = true ∧
    refusedAs (step (feeding 0#8 (dec .unused7 0#8 0#8 0#8 0#8 []))) (.illegalStepKey 0x700#11) = true := by decide
/-- `DispatchFaultStaysRecorded`: both clauses. -/
theorem witness_dispatchFault : let s := feeding 0x79#8 (dec .awaitChecksum 0#8 0#8 0x79#8 0x79#8 [])
    s.dispatchFault = false ∧ (∃ t, step s = .next t ∧ t.dispatchFault = true) ∧
    ∃ t, step { State.reset with dispatchFault := true, input := [resetCommand] } = .next t ∧ t.dispatchFault = true :=
  ⟨by decide, nextIs_elim (by decide), nextIs_elim (by decide)⟩
/-- A FEED step with a frame event and one without (`FrameEventExactlyOnGoodChecksum`). -/
theorem witness_frameEvent :
    (∃ t, step (feeding 5#8 (dec .awaitChecksum 0#8 0#8 5#8 5#8 [])) = .next t ∧ (t.frameOut == some ⟨5#8, 0#8, []⟩) = true) ∧
    ∃ t, step (feeding 6#8 (dec .awaitChecksum 0#8 0#8 5#8 5#8 [])) = .next t ∧ (t.frameOut == none) = true :=
  ⟨nextIs_elim (by decide), nextIs_elim (by decide)⟩
/-- One FEED step for each code 1 to 4 (`DiagNamesTheOneCause`, `ErrorStepsChangeOnlyState`). -/
theorem witness_diag :
    (∃ t, step (feeding 0x25#8 (dec .awaitSync1 0#8 0#8 0#8 0#8 [])) = .next t ∧ (t.diag == 1#3) = true) ∧
    (∃ t, step (feeding 0x24#8 (dec .awaitSync2 0#8 0#8 0#8 0#8 [])) = .next t ∧ (t.diag == 1#3) = true) ∧
    (∃ t, step (feeding 6#8 (dec .awaitChecksum 0#8 0#8 5#8 5#8 [])) = .next t ∧ (t.diag == 2#3) = true) ∧
    (∃ t, step (feeding 5#8 (dec .awaitChecksum 0#8 0#8 5#8 5#8 [])) = .next t ∧ (t.diag == 3#3) = true) ∧
    ∃ t, step (feeding 0x79#8 (dec .awaitChecksum 0#8 0#8 0x79#8 0x79#8 [])) = .next t ∧ (t.diag == 4#3) = true :=
  ⟨nextIs_elim (by decide), nextIs_elim (by decide), nextIs_elim (by decide), nextIs_elim (by decide),
    nextIs_elim (by decide)⟩
/-- Two states that differ in a stale register (`StaleRegistersAreUnobservable`). -/
theorem witness_stale : let s := feeding 0x24#8 State.reset
    let t : State := { s with msgId := 9#8 }
    s.wf = true ∧ t.wf = true ∧ s ≠ t ∧ s.observablyEqual t ∧ ∃ s', step s = .next s' ∧ (s'.state == .awaitSync2) = true :=
  ⟨by decide, by decide, by decide, ⟨rfl, rfl, rfl, rfl, rfl, rfl, rfl, rfl, rfl, rfl, trivial⟩, nextIs_elim (by decide)⟩
theorem witness_idleInvisible : Instr.isDecoderOp .dSync1Hit = true ∧
    ∃ u, exec .idle State.reset = .next u ∧ (u.state == .awaitSync1) = true := ⟨by decide, nextIs_elim (by decide)⟩
theorem witness_commutes : Instr.isDecoderOp .dSync1Hit = true ∧
    (∃ t, exec .dSync1Hit State.reset = .next t ∧ (t.state == .awaitSync2) = true) ∧
    ∃ u, exec (.serialize 5#8 []) State.reset = .next u ∧ (u.serialOut.length == 6) = true :=
  ⟨by decide, nextIs_elim (by decide), nextIs_elim (by decide)⟩
/-- Both clauses of `FieldsAreLittleEndian`, and the premise of `FieldsRoundTrip`. -/
theorem witness_fields : attitude.length = 4 * 3 ∧ (attitude.take 11).length ≠ 4 * 3 ∧
    cutFields 3 attitude = some [0#32, 0x3FC00000#32, 0xBFC00000#32] := by decide
theorem witness_bitFlips : attitude[11]? = some 0xBF#8 ∧ (0x40#8 : Byte) ≠ 0#8 := by decide
theorem witness_perm : List.Perm [0x12#8, 0x34#8, (0x56#8 : Byte)] [0x56#8, 0x12#8, 0x34#8] := by decide
/-- The shortest and the longest frame (`WellFormedFrameIsDelivered`, `EncoderAndDecoderAgree`). -/
theorem witness_frame : let s : State := { State.reset with input := feedAll (wireFrame 0x3C#8 5#8 []) ++ [idleCommand] }
    s.wf = true ∧ s.state = .awaitSync1 ∧ ([] : List Byte).length ≤ 255 ∧ (ramp 255).length ≤ 255 ∧
    s.input = feedAll (wireFrame 0x3C#8 5#8 []) ++ [idleCommand] := by decide +kernel
theorem witness_agree : State.reset.wf = true ∧ State.reset.state = .awaitSync1 ∧
    ∃ u, exec (.serialize 5#8 [1#8]) State.reset = .next u ∧ (u.serialOut.length == 7) = true :=
  ⟨by decide, rfl, nextIs_elim (by decide)⟩
theorem witness_noise : let s : State := { State.reset with input := feedAll [0x00#8, 0x4D#8, 0xFF#8] ++ [] }
    s.wf = true ∧ s.state = .awaitSync1 ∧ 0x24#8 ∉ [0x00#8, 0x4D#8, 0xFF#8] ∧
    s.input = feedAll [0x00#8, 0x4D#8, 0xFF#8] ++ [] := by decide
/-- The frame of V33, its last byte 09 for F6. -/
theorem witness_damaged : let bytes := [0x24#8, 0x4D#8, 0x3E#8, BitVec.ofNat 8 attitude.length, 0x7A#8] ++ attitude ++ [0x09#8]
    let s : State := { State.reset with input := feedAll bytes ++ [] }
    s.wf = true ∧ s.state = .awaitSync1 ∧ attitude.length ≤ 255 ∧
    0x09#8 ≠ frameChecksum (BitVec.ofNat 8 attitude.length) 0x7A#8 attitude ∧ s.input = feedAll bytes ++ [] := by decide
theorem witness_doubledSync : let s : State := { State.reset with input := feedAll [0x24#8, 0x24#8, 0x4D#8] ++ [] }
    s.wf = true ∧ s.state = .awaitSync1 ∧ s.input = feedAll [0x24#8, 0x24#8, 0x4D#8] ++ [] := by decide
/-- `ParkedFrameClosesInBoundedBytes`: one byte is left in `AwaitChecksum`. -/
theorem witness_parked_checksum : let s := feeding 6#8 (dec .awaitChecksum 0#8 0#8 5#8 5#8 [])
    s.wf = true ∧ s.state = .awaitChecksum ∧ [(6#8 : Byte)].length = 1 ∧ s.input = feedAll [6#8] ++ [] ∧
    (0 : Nat) < [(6#8 : Byte)].length := by decide
/-- The last payload byte and the checksum byte are left in `AwaitPayload`. -/
theorem witness_parked_payload : let s : State :=
      { dec .awaitPayload 2#8 1#8 3#8 2#8 [3#8] with input := feedAll [1#8, 2#8] ++ [] }
    s.wf = true ∧ s.state = .awaitPayload ∧
    [1#8, (2#8 : Byte)].length = s.lengthExpected.toNat - s.lengthReceived.toNat + 1 ∧
    s.input = feedAll [1#8, 2#8] ++ [] := by decide
/-- Identifier and checksum byte are left in `AwaitId` of a frame without payload. -/
theorem witness_parked_id : let s : State :=
      { dec .awaitId 0#8 0#8 0#8 0#8 [] with input := feedAll [5#8, 5#8] ++ [] }
    s.wf = true ∧ s.state = .awaitId ∧ [5#8, (5#8 : Byte)].length = s.lengthExpected.toNat + 2 ∧
    s.input = feedAll [5#8, 5#8] ++ [] := by decide
/-- The longest FRAME and SERIALIZE lines of `ScriptLinesExpand`, and a line that leaves `OUT`. -/
theorem witness_script : (ramp 255).length ≤ 255 ∧ (∀ id p, ScriptLine.feeds [0x24#8] ≠ .serialize id p) ∧
    ∀ id, ScriptLine.feeds [0x24#8] ≠ .request id :=
  ⟨by decide +kernel, fun _ _ h => (by cases h), fun _ h => (by cases h)⟩
/-- The shortest payload of `OverlongScriptLines`. -/
theorem witness_script_overlong : 255 < (List.replicate 256 (0#8 : Byte)).length := by
  rw [List.length_replicate]; decide
/-- A script of two operations that completes (`ScriptLeavesItsOut`). -/
theorem witness_scriptOut : let s : State := { State.reset with input := expandScript [] [.request 5#8, .idle] }
    s.input = expandScript s.serialOut [.request 5#8, .idle] ∧
    ∃ t, runSteps (expandScript s.serialOut [.request 5#8, .idle]).length s = .next t ∧
      (t.serialOut == [0x24#8, 0x4D#8, 0x3E#8, 0x00#8, 5#8, 5#8]) = true := ⟨rfl, nextIs_elim (by decide)⟩
/-- One presented word for each alternative of `OnlyTheListedOperationsArePresented`. -/
theorem witness_listed : decodePresented anyRegs (.callSerialize 5#8 []) = .ok (.serialize 5#8 []) ∧
    decodePresented anyRegs (.command 0x3FF#10) = .ok .reset ∧ decodePresented anyRegs (.command 0x0FF#10) = .ok .idle ∧
    decodePresented anyRegs (.command 0x124#10) = .ok .dSync1Hit := ⟨rfl, rfl, rfl, rfl⟩
/-- P3's script line by line: the lost frame and the found one are the same six bytes. -/
theorem test_script_P3 : expandScript [] [.reset, .feed 0x24#8, .request 5#8, .feedsOut, .feedsOut] =
    [resetCommand, feedCommand 0x24#8, .callSerialize 5#8 []] ++
    [0x24#8, 0x4D#8, 0x3E#8, 0x00#8, 5#8, 5#8, 0x24#8, 0x4D#8, 0x3E#8, 0x00#8, 5#8, 5#8].map feedCommand := by decide

end Sys2Proof.Tests
end

/-! SUPPORT. What a step takes from the queue (R43, R45, R106; log entry 4), and the statement of 00_scope.md about it. -/

namespace Sys2Proof.Machine

theorem State.nextPresented_of_input_cons {s : State} {p : Presented} {rest : List Presented} (h : s.input = p :: rest) :
    s.nextPresented = p := by
  simp [State.nextPresented, h]

theorem State.nextPresented_of_input_nil {s : State} (h : s.input = []) : s.nextPresented = idleCommand := by
  simp [State.nextPresented, h]

theorem State.consume_of_input_cons {s : State} {p : Presented} {rest : List Presented} (h : s.input = p :: rest) :
    s.consume = { s with input := rest } := by
  simp [State.consume, h]

/-- An empty queue stays as it is: taking from it changes nothing. -/
theorem State.consume_of_input_nil {s : State} (h : s.input = []) : s.consume = s := by
  cases s
  cases h
  rfl

/-- Settles O26: a step is `exec` of what the operation at the head of the queue decodes to, and with an empty queue that
operation is the idle command word, which decodes to IDLE in every register state. -/
theorem stepRunsTheDecodedOperation : Obligations.StepRunsTheDecodedOperation := by
  constructor
  · intro s p rest i hin hdec
    rw [← State.nextPresented_of_input_cons hin] at hdec
    rw [step_of_decode hdec, State.consume_of_input_cons hin]
  · intro s hin
    have hdec : decodePresented s.keyRegs s.nextPresented = .ok .idle := by
      rw [State.nextPresented_of_input_nil hin, decodePresented_idle]
    rw [step_of_decode hdec, State.consume_of_input_nil hin]

end Sys2Proof.Machine

/-! SUPPORT. What the operations keep: well-formedness (R30, R31), the canonical cells and catalog, and the agreement of the
outputs, each as one lemma over the rules of `Ran`. -/

namespace Sys2Proof.Machine

/-! ### Updates that leave the Decoder's record alone -/

theorem State.deliverFields_sameDecoder (n : Nat) (f : Frame) (s : State) : (s.deliverFields n f).sameDecoder s := by
  rw [State.deliverFields_shape]
  exact ⟨rfl, rfl, rfl, rfl, rfl, rfl, rfl⟩

theorem State.dispatchFrame_sameDecoder (f : Frame) (s : State) : (s.dispatchFrame f).sameDecoder s := by
  rw [State.dispatchFrame_shape]
  exact ⟨rfl, rfl, rfl, rfl, rfl, rfl, rfl⟩

section DeliverFields
variable (n : Nat) (f : Frame) (s : State)

@[simp] theorem State.deliverFields_lengthExpected : (s.deliverFields n f).lengthExpected = s.lengthExpected := by
  rw [deliverFields_shape]
@[simp] theorem State.deliverFields_lengthReceived : (s.deliverFields n f).lengthReceived = s.lengthReceived := by
  rw [deliverFields_shape]
@[simp] theorem State.deliverFields_msgId : (s.deliverFields n f).msgId = s.msgId := by rw [deliverFields_shape]
@[simp] theorem State.deliverFields_cksum : (s.deliverFields n f).cksum = s.cksum := by rw [deliverFields_shape]
@[simp] theorem State.deliverFields_mem : (s.deliverFields n f).mem = s.mem := by rw [deliverFields_shape]
@[simp] theorem State.deliverFields_catalog : (s.deliverFields n f).catalog = s.catalog := by rw [deliverFields_shape]
@[simp] theorem State.deliverFields_input : (s.deliverFields n f).input = s.input := by rw [deliverFields_shape]

end DeliverFields

theorem State.sameDecoder_buf {s t : State} (h : s.sameDecoder t) : s.buf? = t.buf? := by
  obtain ⟨-, -, -, -, -, hmem, hcur⟩ := h
  simp only [State.buf?, hmem, hcur]

/-! ### Well-formedness -/

/-- In the four positions before the identifier byte R30 asks for no more than a readable buffer, so moving there keeps a
state well-formed, whatever becomes of the registers. -/
theorem State.wf_of_headerState {s t : State} (h : s.wf = true) (hmem : t.mem = s.mem) (hcur : t.cursor = s.cursor)
    (hst : t.state = .awaitSync1 ∨ t.state = .awaitSync2 ∨ t.state = .awaitDirection ∨ t.state = .awaitLength) :
    t.wf = true := by
  obtain ⟨hcap, buf, hbuf, -⟩ := State.wf_iff.mp h
  refine State.wf_iff.mpr ⟨hcur ▸ hcap, buf, ?_, ?_⟩
  · simpa only [State.buf?, hmem, hcur] using hbuf
  · obtain hst | hst | hst | hst := hst <;> simp [State.clauseHolds, hst]

/-- A cleared buffer is readable: only the clause of the position is left to check. -/
theorem State.wf_of_cleared {t : State} (hcur : t.cursor = 0) (hc : t.clauseHolds [] = true) : t.wf = true :=
  State.wf_iff.mpr ⟨by omega, [], by simp [State.buf?, hcur, Memory.readSeq], hc⟩

/-- An appended byte keeps the buffer readable: only the clause of the position is left to check. -/
theorem State.wf_of_appended {s t : State} {b : Byte} {buf : List Byte} (hroom : s.cursor < Config.bufCap)
    (hbuf : s.buf? = some buf) (hmem : t.mem = s.mem.put s.cursor b) (hcur : t.cursor = s.cursor + 1)
    (hc : t.clauseHolds (buf ++ [b]) = true) : t.wf = true := by
  refine State.wf_iff.mpr ⟨by omega, buf ++ [b], ?_, hc⟩
  simpa only [State.buf?, hmem, hcur] using State.append_buf b hbuf

/-- Counting one payload byte does not wrap while fewer than `length_expected` have come (R89). -/
theorem toNat_succ_of_lt {x y : Byte} (h : x.toNat < y.toNat) : (x + 1#8).toNat = x.toNat + 1 := by
  have := y.isLt
  exact BitVec.toNat_add_of_lt (by rw [BitVec.toNat_ofNat]; omega)

/-- Folding one more payload byte into the checksum (R76). -/
theorem xorAll_snoc (a : Byte) (buf : List Byte) (b : Byte) : a ^^^ xorAll buf ^^^ b = a ^^^ xorAll (buf ++ [b]) := by
  simp [BitVec.xor_assoc]

/-- R31 over the rules of `Ran`: the clause of the position entered follows from the writes of the rule. -/
theorem Ran.wf {s t : State} {i : Instr} (hr : Ran s i t) (h : s.wf = true) : t.wf = true := by
  cases hr with
  | sync1Hit | sync1Miss | sync2Hit | sync2Miss | dir | ckBad => exact State.wf_of_headerState h rfl rfl (by simp [*])
  | len b =>
    obtain ⟨hcap, buf, hbuf, -⟩ := State.wf_iff.mp h
    exact State.wf_iff.mpr ⟨hcap, buf, hbuf, by simp [State.clauseHolds]⟩
  | idNz b _ hs hne =>
    obtain ⟨hrec, hck⟩ := State.wf_awaitId h hs
    have hpos : 0 < s.lengthExpected.toNat := Nat.pos_of_ne_zero fun h0 => hne (BitVec.eq_of_toNat_eq h0)
    exact State.wf_of_cleared rfl (by simp [State.clauseHolds, hrec, hck]; omega)
  | idZ b _ hs hz =>
    obtain ⟨hrec, hck⟩ := State.wf_awaitId h hs
    exact State.wf_of_cleared rfl (by simp [State.clauseHolds, hrec, hck, hz])
  | payMore b _ hs hmore hroom =>
    obtain ⟨buf, hbuf, hpos, hlt, hlen, hck, -⟩ := State.wf_awaitPayload h hs
    refine State.wf_of_appended hroom hbuf rfl rfl ?_
    have hcount := toNat_succ_of_lt hlt
    simp only [State.clauseHolds, hs, hcount, hck, xorAll_snoc]
    simp [hlen]; omega
  | payLast b _ hs hlast hroom =>
    obtain ⟨buf, hbuf, hpos, hlt, hlen, hck, -⟩ := State.wf_awaitPayload h hs
    refine State.wf_of_appended hroom hbuf rfl rfl ?_
    have hcount : s.lengthReceived + 1#8 = s.lengthExpected :=
      BitVec.eq_of_toNat_eq ((toNat_succ_of_lt hlt).trans hlast)
    simp only [State.clauseHolds, hcount, hck, xorAll_snoc]
    simp [hlen, hlast]
  | ckOk b buf =>
    rw [State.wf_congr (State.dispatchFrame_sameDecoder _ _)]
    exact State.wf_of_headerState h rfl rfl (.inl rfl)
  | reset => exact State.wf_of_cleared rfl rfl
  | idle | checksum | serialize => exact h
  | x121 | x122 => rw [State.wf_congr (State.deliverFields_sameDecoder _ _ _)]; exact h
  | xUnknown => exact h

theorem exec_keeps_wf {i : Instr} {s t : State} (h : s.wf = true) (he : exec i s = .next t) : t.wf = true :=
  (exec_ran he).wf h

/-- Settles O31: the rule that ran enters a position whose clause its own writes meet (`Ran.wf`). -/
theorem operationsKeepWellFormedness : Obligations.OperationsKeepWellFormedness :=
  fun _ _ _ => exec_keeps_wf

/-! ### The queue, the catalog and the cells -/

/-- No operation writes the catalog or the queue (R26, R43). -/
theorem Ran.catalog_input {s t : State} {i : Instr} (hr : Ran s i t) : t.catalog = s.catalog ∧ t.input = s.input := by
  cases hr with
  | ckOk => exact ⟨State.dispatchFrame_catalog _ _, State.dispatchFrame_input _ _⟩
  | x121 | x122 => exact ⟨State.deliverFields_catalog _ _ _, State.deliverFields_input _ _ _⟩
  | _ => exact ⟨rfl, rfl⟩

/-- Settles O37: taking the head of the queue is the step's own, and the operation it runs leaves queue and catalog. -/
theorem stepConsumesOneAndKeepsTheCatalog : Obligations.StepConsumesOneAndKeepsTheCatalog := by
  intro s t hstep
  obtain ⟨i, -, hexec⟩ := step_next hstep
  obtain ⟨hcat, hin⟩ := (exec_ran hexec).catalog_input
  exact ⟨hin, hcat⟩

/-- The cells change only by the write of a payload byte to the cell at the cursor, which exists (R23, R24). -/
theorem Ran.mem_cases {s t : State} {i : Instr} (hr : Ran s i t) :
    i.storesByte = false ∧ t.mem = s.mem ∨
    i.storesByte = true ∧ s.cursor < Config.bufCap ∧ ∃ b, t.mem = s.mem.put s.cursor b := by
  cases hr with
  | payMore b _ _ _ hroom | payLast b _ _ _ hroom => exact .inr ⟨rfl, hroom, b, rfl⟩
  | ckOk => exact .inl ⟨rfl, State.dispatchFrame_mem _ _⟩
  | x121 | x122 => exact .inl ⟨rfl, State.deliverFields_mem _ _ _⟩
  | _ => exact .inl ⟨rfl, rfl⟩

theorem Ran.mem_wf {s t : State} {i : Instr} (hr : Ran s i t) (h : s.mem.wf = true) : t.mem.wf = true := by
  obtain ⟨-, hmem⟩ | ⟨-, hroom, b, hmem⟩ := hr.mem_cases
  · rwa [hmem]
  · rw [hmem]
    exact Memory.wfFrom_put hroom (Nat.zero_le _) h

/-! ### The outputs -/

/-- Without events the outputs agree as soon as `diag` is a code of R109. -/
theorem State.outputsOk_of_noEvents {t : State} (hf : t.frameOut = none) (hd : t.dispatchOut = none)
    (hdiag : t.diag.toNat ≤ 4) : t.outputsOk = true := by
  simp [State.outputsOk, hf, hd, hdiag]

/-- A frame event without a dispatch event agrees as soon as its payload has `frame_len` bytes (R80). -/
theorem State.outputsOk_of_frameOnly {t : State} {f : Frame} (hf : t.frameOut = some f) (hd : t.dispatchOut = none)
    (hlen : f.payload.length = f.len.toNat) (hdiag : t.diag.toNat ≤ 4) : t.outputsOk = true := by
  simp [State.outputsOk, hf, hd, hlen, hdiag]

/-- A frame event with the dispatch event of its own fields (R98, R99). -/
theorem State.outputsOk_of_dispatch {t : State} {f : Frame} {n : Nat} {fs : List Word32} (hf : t.frameOut = some f)
    (hd : t.dispatchOut = some ⟨f.id, fs⟩) (hlen : f.payload.length = f.len.toNat) (hdiag : t.diag.toNat ≤ 4)
    (hcat : fieldCountOf t.catalog f.id = some n) (hcut : cutFields n f.payload = some fs) : t.outputsOk = true := by
  simp [State.outputsOk, hf, hd, hlen, hdiag, hcat, hcut]

theorem State.outputsOk_frame {s : State} {f : Frame} (h : s.outputsOk = true) (hf : s.frameOut = some f) :
    f.payload.length = f.len.toNat := by
  simp only [State.outputsOk, hf, Bool.and_eq_true, beq_iff_eq] at h
  exact h.2.1

section Stage
variable {s : State} {f : Frame}

/-- Delivering the fields the catalog gives a standing frame event leaves outputs that agree. -/
theorem State.outputsOk_deliverFields {n : Nat} (hf : s.frameOut = some f) (hd : s.dispatchOut = none)
    (hdiag : s.diag = 0#3) (hlen : f.payload.length = f.len.toNat) (hcat : fieldCountOf s.catalog f.id = some n) :
    (s.deliverFields n f).outputsOk = true := by
  obtain ⟨fs, hcut, -, he⟩ | ⟨-, -, he⟩ := State.deliverFields_cases n f s
  · rw [he]
    exact State.outputsOk_of_dispatch hf rfl hlen (by simp [hdiag]) hcat hcut
  · rw [he]
    exact State.outputsOk_of_frameOnly hf hd hlen (by simp [ErrorClass.code])

theorem State.outputsOk_raise_unknownId (hf : s.frameOut = some f) (hd : s.dispatchOut = none)
    (hlen : f.payload.length = f.len.toNat) : (s.raise .unknownId).outputsOk = true :=
  State.outputsOk_of_frameOnly hf hd hlen (by simp [ErrorClass.code])

/-- The whole stage: the identifier is unknown, or its fields are delivered. -/
theorem State.outputsOk_dispatchFrame (hf : s.frameOut = some f) (hd : s.dispatchOut = none) (hdiag : s.diag = 0#3)
    (hlen : f.payload.length = f.len.toNat) : (s.dispatchFrame f).outputsOk = true := by
  unfold State.dispatchFrame
  split
  · exact State.outputsOk_deliverFields hf hd hdiag hlen ‹_›
  · exact State.outputsOk_raise_unknownId hf hd hlen

end Stage

/-- A Decoder operation makes its outputs anew, the stage completes those of the frame event that stands, and the two
functions leave them. -/
theorem Ran.outputsOk {s t : State} {i : Instr} (hr : Ran s i t) (h : s.outputsOk = true) : t.outputsOk = true := by
  cases hr with
  | ckOk b buf _ _ _ _ hlen => exact State.outputsOk_dispatchFrame rfl rfl rfl hlen
  | checksum | serialize => exact h
  | x121 f hf hd _ hcat | x122 f hf hd _ hcat =>
    exact State.outputsOk_deliverFields (s := s.clearDiag) hf hd rfl (State.outputsOk_frame h hf) hcat
  | xUnknown f hf hd => exact State.outputsOk_raise_unknownId hf hd (State.outputsOk_frame h hf)
  | _ => exact State.outputsOk_of_noEvents rfl rfl (by simp)

/-! ### The invariant -/

theorem State.inv_iff {s : State} :
    s.Inv = true ↔ s.wf = true ∧ s.mem.wf = true ∧ catalogWf s.catalog = true ∧ s.outputsOk = true := by
  simp [State.Inv, and_assoc]

@[simp] theorem State.consume_inv (s : State) : s.consume.Inv = s.Inv := rfl

theorem Ran.inv {s t : State} {i : Instr} (hr : Ran s i t) (h : s.Inv = true) : t.Inv = true := by
  obtain ⟨hwf, hmem, hcat, hout⟩ := State.inv_iff.mp h
  obtain ⟨hsame, -⟩ := hr.catalog_input
  exact State.inv_iff.mpr ⟨hr.wf hwf, hr.mem_wf hmem, hsame ▸ hcat, hr.outputsOk hout⟩

/-- Settles O32: a step runs one operation, and every operation keeps each part of the invariant (`Ran.inv`). -/
theorem stepKeepsTheInvariant : Obligations.StepKeepsTheInvariant := by
  intro s t h hstep
  obtain ⟨i, -, hexec⟩ := step_next hstep
  exact (exec_ran hexec).inv (by rwa [State.consume_inv])

/-! ### Reset -/

/-- Settles O24: the values of R33 are those of the reset state as written, with an empty buffer below cursor 0. -/
theorem resetValues : Obligations.ResetValues :=
  ⟨rfl, rfl, rfl, rfl, rfl, rfl, rfl, rfl, rfl, rfl⟩

/-- Settles O25: the buffer is cleared and the outputs are none, so what is left to compute is the tested catalog. -/
theorem resetMeetsTheInvariant : Obligations.ResetMeetsTheInvariant :=
  State.inv_iff.mpr
    ⟨State.wf_of_cleared rfl rfl, Memory.wf_reset, by decide, State.outputsOk_of_noEvents rfl rfl (by decide)⟩

end Sys2Proof.Machine

/-! SUPPORT. Which operations stop, and how: the refusal on ill-formed states (R30, R64) and the absence of faults; then R15's
column "written by", one lemma per component. -/

namespace Sys2Proof.Machine

/-! ### Refusals -/

/-- A command word selects a Decoder operation or, in code 7, nothing (R51, R52, R64 a). -/
theorem decodePresented_command (r : KeyRegs) (c : BitVec 10) :
    (∃ i, decodePresented r (.command c) = .ok i ∧ i.isDecoderOp = true) ∨
    ∃ k, r.state = .unused7 ∧ decodePresented r (.command c) = .error (.illegalStepKey k) := by
  simp only [decodePresented]
  cases decodeCommand c with
  | reset => exact .inl ⟨.reset, rfl, rfl⟩
  | idle => exact .inl ⟨.idle, rfl, rfl⟩
  | feed b =>
    simp only [decodeKey_stepKeyOf]
    cases r.state with
    | unused7 => exact .inr ⟨_, rfl, rfl⟩
    | awaitDirection => exact .inl ⟨.dDir b, rfl, rfl⟩
    | awaitLength => exact .inl ⟨.dLen b, rfl, rfl⟩
    | _ => exact .inl ⟨_, rfl, by split <;> rfl⟩

/-- Every Decoder operation is a `State.decoderStep`, which looks at well-formedness first (R30). -/
theorem exec_illFormed {i : Instr} {s : State} (hi : i.isDecoderOp = true) (h : s.wf = false) :
    exec i s = .refused .illFormedState := by
  cases i with
  | checksum | serialize | x121 | x122 | xUnknown => cases hi
  | _ => simp only [exec]; exact State.decoderStep_illFormed h

/-- Settles O34: a Decoder operation is refused by its own check, and a command word selects one unless the position is
code 7, where the step key is illegal. -/
theorem illFormedStatesAreRefused : Obligations.IllFormedStatesAreRefused := by
  intro s h
  refine ⟨fun i hi => exec_illFormed hi h, fun c rest hin => ?_⟩
  have hnext := State.nextPresented_of_input_cons hin
  obtain ⟨i, hdec, hi⟩ | ⟨k, hst, hdec⟩ := decodePresented_command s.keyRegs c
  · rw [← hnext] at hdec
    exact .inl ((step_of_decode hdec).trans (exec_illFormed hi h))
  · exact .inr ⟨k, hst, by simp only [step, hnext, hdec]⟩

/-! ### Faults -/

/-- A Decoder operation faults only where its effect does, on a well-formed state that selects it. -/
theorem State.decoderStep_ne_fault {s : State} {sel : Bool} {effect : State → Result} {r : Fault}
    (h : s.wf = true → sel = true → effect s.clearOutputs ≠ .fault r) : s.decoderStep sel effect ≠ .fault r := by
  cases hw : s.wf with
  | false => simp [State.decoderStep_illFormed hw]
  | true =>
    cases hs : sel with
    | false => simp [State.decoderStep_notSelected hw rfl]
    | true => rw [State.decoderStep_selected hw rfl]; exact h hw hs

/-- In `AwaitPayload` a well-formed state has room for one more byte (R24), so `BufAppend` is no fault there. -/
theorem State.bufAppend_clearOutputs_ne_fault {s : State} {b : Byte} {k : State → Result} {r : Fault}
    (hw : s.wf = true) (hs : s.state = .awaitPayload) (hk : ∀ u, k u ≠ .fault r) :
    s.clearOutputs.bufAppend b k ≠ .fault r := by
  obtain ⟨-, -, -, -, -, -, -, hroom⟩ := State.wf_awaitPayload hw hs
  rw [State.bufAppend_room b k (s := s.clearOutputs) hroom]
  exact hk _

/-- An operation of the dispatch stage answers a next state or is refused (R101; log entry 16). -/
theorem State.dispatchStep_ne_fault (s : State) (selected : Frame → Bool) (effect : Frame → State → State) (r : Fault) :
    s.dispatchStep selected effect ≠ .fault r := by
  unfold State.dispatchStep
  split
  · split <;> nofun
  · nofun

theorem exec_ne_fault (i : Instr) (s : State) (r : Fault) : exec i s ≠ .fault r := by
  cases i with
  | dPayMore | dPayLast =>
    simp only [exec]
    refine State.decoderStep_ne_fault fun hw hsel => ?_
    simp only [Bool.and_eq_true, beq_iff_eq] at hsel
    exact State.bufAppend_clearOutputs_ne_fault hw hsel.1 nofun
  | dCkOk =>
    simp only [exec]
    refine State.decoderStep_ne_fault fun _ _ => ?_
    split <;> nofun
  | checksum => nofun
  | serialize id p =>
    simp only [exec, execSerialize]
    split <;> nofun
  | x121 | x122 | xUnknown => exact State.dispatchStep_ne_fault _ _ _ r
  | _ => simp only [exec]; exact State.decoderStep_ne_fault fun _ _ => nofun

/-- Settles O35: the one fault is a write outside the array, and a well-formed state in `AwaitPayload`, where alone a byte is
stored, has room. -/
theorem nothingFaults : Obligations.NothingFaults := by
  refine ⟨exec_ne_fault, fun s r => ?_⟩
  unfold step
  split
  · exact exec_ne_fault _ _ r
  · nofun

/-! ### R15, column "written by" -/

section WrittenBy
variable {s t : State} {i : Instr}

/-- The Encoder's and the stage's operations write no component of the Decoder's record, and neither does IDLE (R93, R96,
R106). -/
theorem Ran.sameDecoder (hr : Ran s i t) (hi : i.isDecoderOp = false ∨ i = .idle) : t.sameDecoder s := by
  cases hr with
  | idle | checksum | serialize | xUnknown => exact ⟨rfl, rfl, rfl, rfl, rfl, rfl, rfl⟩
  | x121 | x122 => exact State.deliverFields_sameDecoder _ _ _
  | _ => simp [Instr.isDecoderOp] at hi

theorem Ran.lengthExpected_eq (hr : Ran s i t) (hlen : ∀ b, i ≠ .dLen b) (hreset : i ≠ .reset) :
    t.lengthExpected = s.lengthExpected := by
  cases hr with
  | len b => exact absurd rfl (hlen b)
  | reset => exact absurd rfl hreset
  | ckOk => exact State.dispatchFrame_lengthExpected _ _
  | x121 | x122 => exact State.deliverFields_lengthExpected _ _ _
  | _ => rfl

theorem Ran.lengthReceived_eq (hr : Ran s i t) (hlen : ∀ b, i ≠ .dLen b) (hstore : i.storesByte = false)
    (hreset : i ≠ .reset) : t.lengthReceived = s.lengthReceived := by
  cases hr with
  | len b => exact absurd rfl (hlen b)
  | payMore | payLast => cases hstore
  | reset => exact absurd rfl hreset
  | ckOk => exact State.dispatchFrame_lengthReceived _ _
  | x121 | x122 => exact State.deliverFields_lengthReceived _ _ _
  | _ => rfl

theorem Ran.msgId_eq (hr : Ran s i t) (hid : i.takesId = false) (hreset : i ≠ .reset) : t.msgId = s.msgId := by
  cases hr with
  | idNz | idZ => cases hid
  | reset => exact absurd rfl hreset
  | ckOk => exact State.dispatchFrame_msgId _ _
  | x121 | x122 => exact State.deliverFields_msgId _ _ _
  | _ => rfl

theorem Ran.cksum_eq (hr : Ran s i t) (hlen : ∀ b, i ≠ .dLen b) (hid : i.takesId = false) (hstore : i.storesByte = false)
    (hreset : i ≠ .reset) : t.cksum = s.cksum := by
  cases hr with
  | len b => exact absurd rfl (hlen b)
  | idNz | idZ => cases hid
  | payMore | payLast => cases hstore
  | reset => exact absurd rfl hreset
  | ckOk => exact State.dispatchFrame_cksum _ _
  | x121 | x122 => exact State.deliverFields_cksum _ _ _
  | _ => rfl

theorem Ran.buf_eq (hr : Ran s i t) (hid : i.takesId = false) (hstore : i.storesByte = false) (hreset : i ≠ .reset) :
    t.buf? = s.buf? := by
  cases hr with
  | idNz | idZ => cases hid
  | payMore | payLast => cases hstore
  | reset => exact absurd rfl hreset
  | ckOk => exact State.dispatchFrame_buf _ _
  | x121 | x122 => exact State.sameDecoder_buf (State.deliverFields_sameDecoder _ _ _)
  | _ => rfl

/-- The cell at the cursor is the only one a storing operation can change, and the others change none (R23, R24). -/
theorem Ran.read_eq (hr : Ran s i t) {k : Nat} (hk : i.storesByte = true → k ≠ s.cursor) : t.mem.read k = s.mem.read k := by
  obtain ⟨-, hmem⟩ | ⟨hstore, -, b, hmem⟩ := hr.mem_cases
  · rw [hmem]
  · rw [hmem, Memory.read_put_other _ _ (hk hstore)]

end WrittenBy

/-- Settles O36: one frame lemma per component of R15, each read off the rules of `Ran`. -/
theorem onlyTheListedOperationsWrite : Obligations.OnlyTheListedOperationsWrite := by
  intro i s t hexec
  have hr := exec_ran hexec
  refine ⟨fun hi => ?_, hr.lengthExpected_eq, hr.lengthReceived_eq, hr.msgId_eq, hr.cksum_eq, hr.buf_eq, fun hstore k => ?_,
    fun _ k hk => hr.read_eq fun _ => hk, hr.catalog_input⟩
  · obtain ⟨hstate, -⟩ := hr.sameDecoder hi
    exact hstate
  · exact hr.read_eq fun h => absurd (h.symm.trans hstore) (by decide)

end Sys2Proof.Machine

/-! SUPPORT. `Ran` is all of `exec`: each rule also says when `exec` answers its next state. Then the two statements about
pairs of runs and about whole runs that need it, stale registers (R32) and parked frames (R84). -/

namespace Sys2Proof.Machine

/-- The converse of `exec_ran`: where a rule's conditions hold, `exec` answers its next state. -/
theorem Ran.exec_eq {s t : State} {i : Instr} (hr : Ran s i t) : exec i s = .next t := by
  cases hr with
  | sync1Hit hw hs | sync2Hit hw hs | dir _ hw hs | len _ hw hs =>
    simp only [exec]
    exact State.decoderStep_next.mpr ⟨hw, by simp [hs], rfl⟩
  | sync1Miss _ hw hs hb | sync2Miss _ hw hs hb =>
    simp only [exec]
    exact State.decoderStep_next.mpr ⟨hw, by simp [hs, hb, Config.sync1, Config.sync2], rfl⟩
  | idNz _ hw hs hl | idZ _ hw hs hl =>
    simp only [exec]
    exact State.decoderStep_next.mpr ⟨hw, by simp [hs, hl, KeyRegs.hasPayload], rfl⟩
  | payMore b hw hs hl hroom | payLast b hw hs hl hroom =>
    simp only [exec]
    refine State.decoderStep_next.mpr ⟨hw, by simp [hs, hl, KeyRegs.isLastByte], ?_⟩
    exact State.bufAppend_room b _ (s := s.clearOutputs) hroom
  | ckOk b buf hw hs hb hbuf =>
    simp only [exec]
    refine State.decoderStep_next.mpr ⟨hw, by simp [hs, hb, KeyRegs.checksumMatches], ?_⟩
    simp only [State.clearOutputs_buf, hbuf]
    rfl
  | ckBad b hw hs hb =>
    simp only [exec]
    exact State.decoderStep_next.mpr ⟨hw, by simp [hs, hb, KeyRegs.checksumMatches], rfl⟩
  | reset hw | idle hw =>
    simp only [exec]
    exact State.decoderStep_next.mpr ⟨hw, rfl, rfl⟩
  | checksum => rfl
  | serialize id p hp => exact if_pos hp
  | x121 f hf hd hid hcat | x122 f hf hd hid hcat =>
    rw [hid] at hcat
    exact State.dispatchStep_next.mpr ⟨f, hf, hd, by simp [hid, hcat], rfl⟩
  | xUnknown f hf hd hcat => exact State.dispatchStep_next.mpr ⟨f, hf, hd, by simp [hcat], rfl⟩

/-- A step runs the operation that what is presented decodes to, by its rule. -/
theorem step_of_ran {s t : State} {i : Instr} (hdec : decodePresented s.keyRegs s.nextPresented = .ok i)
    (hr : Ran s.consume i t) : step s = .next t :=
  (step_of_decode hdec).trans hr.exec_eq

/-! ### Stale registers -/

/-- `s` with the registers and the buffer of `u`: the components a stale value can stand in (R32). -/
def State.withRecordOf (s u : State) : State :=
  { s with lengthExpected := u.lengthExpected, lengthReceived := u.lengthReceived, msgId := u.msgId, cksum := u.cksum
           mem := u.mem, cursor := u.cursor }

/-- The registers and the buffer that are not stale in the position of `s`: the last clause of `observablyEqual`. -/
def State.sameLive (s u : State) : Prop :=
  match s.state with
  | .awaitSync1 | .awaitSync2 | .awaitDirection | .awaitLength => True
  | .awaitId => s.lengthExpected = u.lengthExpected
  | .awaitPayload | .awaitChecksum | .unused7 =>
    s.lengthExpected = u.lengthExpected ∧ s.lengthReceived = u.lengthReceived ∧ s.msgId = u.msgId
      ∧ s.cksum = u.cksum ∧ s.buf? = u.buf?

/-- Observable equality is equality of everything outside the registers and the buffer, and of what is live among these. -/
theorem State.observablyEqual_iff {s t : State} : s.observablyEqual t ↔ t = s.withRecordOf t ∧ s.sameLive t := by
  constructor
  · rintro ⟨hst, hcat, hin, hfo, hdo, hdi, hev, hdf, hso, hco, hlive⟩
    refine ⟨?_, hlive⟩
    rw [State.withRecordOf, hst, hcat, hin, hfo, hdo, hdi, hev, hdf, hso, hco]
  · rintro ⟨ht, hlive⟩
    rw [ht]
    exact ⟨rfl, rfl, rfl, rfl, rfl, rfl, rfl, rfl, rfl, rfl, hlive⟩

section Stale
variable {s s' u : State}

theorem State.sameLive_awaitId (hl : s.sameLive u) (hs : s.state = .awaitId) : s.lengthExpected = u.lengthExpected := by
  simpa only [State.sameLive, hs] using hl

/-- In `AwaitId` well-formedness ties `length_received` and `cksum` to what is live (R30). -/
theorem State.sameLive_awaitId_record (hl : s.sameLive u) (hs : s.state = .awaitId) (hws : s.wf = true)
    (hw : (s.withRecordOf u).wf = true) :
    s.lengthExpected = u.lengthExpected ∧ s.lengthReceived = u.lengthReceived ∧ s.cksum = u.cksum := by
  have hle := State.sameLive_awaitId hl hs
  obtain ⟨hrec, hck⟩ := State.wf_awaitId hws hs
  obtain ⟨hrec', hck'⟩ := State.wf_awaitId hw hs
  exact ⟨hle, hrec.trans hrec'.symm, hck.trans (hle.trans hck'.symm)⟩

theorem State.sameLive_collecting (hl : s.sameLive u) (hs : s.state = .awaitPayload ∨ s.state = .awaitChecksum) :
    s.lengthExpected = u.lengthExpected ∧ s.lengthReceived = u.lengthReceived ∧ s.msgId = u.msgId
      ∧ s.cksum = u.cksum ∧ s.buf? = u.buf? := by
  obtain hs | hs := hs <;> simpa only [State.sameLive, hs] using hl

/-- Before the identifier byte every register is stale. -/
theorem State.sameLive_of_headerState
    (hs : s.state = .awaitSync1 ∨ s.state = .awaitSync2 ∨ s.state = .awaitDirection ∨ s.state = .awaitLength) :
    s.sameLive u := by
  obtain hs | hs | hs | hs := hs <;> simp [State.sameLive, hs]

theorem State.sameLive_congr (h : s'.sameDecoder s) (hl : s.sameLive u) : s'.sameLive u := by
  have hbuf := State.sameDecoder_buf h
  obtain ⟨hst, hle, hlr, hid, hck, -, -⟩ := h
  simpa only [State.sameLive, hst, hle, hlr, hid, hck, hbuf] using hl

/-- Decoding reads live registers only (R52). -/
theorem decodePresented_withRecordOf (hl : s.sameLive u) (p : Presented) :
    decodePresented (s.withRecordOf u).keyRegs p = decodePresented s.keyRegs p := by
  cases p with
  | callSerialize => rfl
  | command c =>
    simp only [decodePresented]
    cases decodeCommand c with
    | reset | idle => rfl
    | feed b =>
      change decodeKey (s.withRecordOf u).keyRegs (stepKeyOf s.state b) = decodeKey s.keyRegs (stepKeyOf s.state b)
      rw [decodeKey_stepKeyOf, decodeKey_stepKeyOf]
      cases hs : s.state with
      | awaitId =>
        have hle := State.sameLive_awaitId hl hs
        simp [KeyRegs.hasPayload, State.withRecordOf, hle]
      | awaitPayload =>
        obtain ⟨hle, hlr, -⟩ := State.sameLive_collecting hl (.inl hs)
        simp [KeyRegs.isLastByte, State.withRecordOf, hle, hlr]
      | awaitChecksum =>
        obtain ⟨-, -, -, hck, -⟩ := State.sameLive_collecting hl (.inr hs)
        simp [KeyRegs.checksumMatches, State.withRecordOf, hck]
      | _ => rfl

/-- The dispatch stage reads nothing of the Decoder but the frame event (R96). -/
theorem State.deliverFields_withRecordOf (n : Nat) (f : Frame) (s u : State) :
    (s.withRecordOf u).deliverFields n f = (s.deliverFields n f).withRecordOf u := by
  unfold State.deliverFields
  split <;> rfl

theorem State.deliverFields_clearDiag_withRecordOf (n : Nat) (f : Frame) (s u : State) :
    (s.withRecordOf u).clearDiag.deliverFields n f = (s.clearDiag.deliverFields n f).withRecordOf u :=
  State.deliverFields_withRecordOf n f s.clearDiag u

theorem State.dispatchFrame_withRecordOf (f : Frame) (s u : State) :
    (s.withRecordOf u).dispatchFrame f = (s.dispatchFrame f).withRecordOf u := by
  unfold State.dispatchFrame
  rw [show (s.withRecordOf u).catalog = s.catalog from rfl]
  split
  · exact State.deliverFields_withRecordOf _ f s u
  · rfl

/-- Two states with the same live record append one byte alike (R76, R77): the same buffer, and so the same cursor. -/
theorem State.buf_append_congr {buf : List Byte} (b : Byte) (hs : s.buf? = some buf) (hu : s.buf? = u.buf?) :
    u.cursor = s.cursor ∧
    ({ s with mem := s.mem.put s.cursor b, cursor := s.cursor + 1 } : State).buf? =
      ({ u with mem := u.mem.put u.cursor b, cursor := u.cursor + 1 } : State).buf? := by
  have hu' : u.buf? = some buf := hu.symm.trans hs
  exact ⟨(State.buf_length hu').symm.trans (State.buf_length hs),
    (State.append_buf b hs).trans (State.append_buf b hu').symm⟩

/-- A rule that runs on `s` runs on every well-formed state with the same live record, and the results agree likewise. -/
theorem Ran.withRecordOf {i : Instr} (hr : Ran s i s') (hl : s.sameLive u) (hw : (s.withRecordOf u).wf = true) :
    ∃ t', Ran (s.withRecordOf u) i t' ∧ t' = s'.withRecordOf t' ∧ s'.sameLive t' := by
  cases hr with
  | sync1Hit _ hs => exact ⟨_, .sync1Hit hw hs, rfl, trivial⟩
  | sync1Miss b _ hs hb => exact ⟨_, .sync1Miss b hw hs hb, rfl, State.sameLive_of_headerState (.inl hs)⟩
  | sync2Hit _ hs => exact ⟨_, .sync2Hit hw hs, rfl, trivial⟩
  | sync2Miss b _ hs hb => exact ⟨_, .sync2Miss b hw hs hb, rfl, trivial⟩
  | dir b _ hs => exact ⟨_, .dir b hw hs, rfl, trivial⟩
  | len b _ hs => exact ⟨_, .len b hw hs, rfl, rfl⟩
  | idNz b hws hs hne =>
    obtain ⟨hle, hlr, hck⟩ := State.sameLive_awaitId_record hl hs hws hw
    exact ⟨_, .idNz b hw hs (hle ▸ hne), rfl, hle, hlr, rfl, congrArg (· ^^^ b) hck, rfl⟩
  | idZ b hws hs hz =>
    obtain ⟨hle, hlr, hck⟩ := State.sameLive_awaitId_record hl hs hws hw
    exact ⟨_, .idZ b hw hs (hle ▸ hz), rfl, hle, hlr, rfl, congrArg (· ^^^ b) hck, rfl⟩
  | payMore b hws hs hmore hroom =>
    obtain ⟨hle, hlr, hid, hck, hbuf⟩ := State.sameLive_collecting hl (.inl hs)
    obtain ⟨buf, hb, -⟩ := State.wf_awaitPayload hws hs
    obtain ⟨hcur, happ⟩ := State.buf_append_congr b hb hbuf
    refine ⟨_, .payMore b hw hs (hle ▸ hlr ▸ hmore) (hcur ▸ hroom), rfl, ?_⟩
    simp only [State.sameLive, hs]
    exact ⟨hle, congrArg (· + 1#8) hlr, hid, congrArg (· ^^^ b) hck, happ⟩
  | payLast b hws hs hlast hroom =>
    obtain ⟨hle, hlr, hid, hck, hbuf⟩ := State.sameLive_collecting hl (.inl hs)
    obtain ⟨buf, hb, -⟩ := State.wf_awaitPayload hws hs
    obtain ⟨hcur, happ⟩ := State.buf_append_congr b hb hbuf
    exact ⟨_, .payLast b hw hs (hle ▸ hlr ▸ hlast) (hcur ▸ hroom), rfl, hle, congrArg (· + 1#8) hlr, hid,
      congrArg (· ^^^ b) hck, happ⟩
  | ckOk b buf _ hs hb hbuf hlen =>
    obtain ⟨hle, -, hid, hck, hbufu⟩ := State.sameLive_collecting hl (.inr hs)
    have hf : closing (s.withRecordOf u) buf = closing s buf := by simp [closing, State.withRecordOf, hle, hid]
    have hr := Ran.ckOk b buf hw hs (hck ▸ hb) (hbufu.symm.trans hbuf) (hle ▸ hlen)
    rw [hf, show closed (s.withRecordOf u) (closing s buf) = (closed s (closing s buf)).withRecordOf u from rfl,
      State.dispatchFrame_withRecordOf] at hr
    exact ⟨_, hr, rfl, State.sameLive_of_headerState (.inl (State.dispatchFrame_state _ _))⟩
  | ckBad b _ hs hb =>
    obtain ⟨-, -, -, hck, -⟩ := State.sameLive_collecting hl (.inr hs)
    exact ⟨_, .ckBad b hw hs (hck ▸ hb), rfl, trivial⟩
  | reset => exact ⟨_, .reset hw, rfl, trivial⟩
  | idle => exact ⟨_, .idle hw, rfl, hl⟩
  | checksum l => exact ⟨_, .checksum l, rfl, hl⟩
  | serialize id p hp => exact ⟨_, .serialize id p hp, rfl, hl⟩
  | x121 f hf hd hid hcat =>
    have hr := Ran.x121 (s := s.withRecordOf u) f hf hd hid hcat
    rw [State.deliverFields_clearDiag_withRecordOf] at hr
    exact ⟨_, hr, rfl, State.sameLive_congr (State.deliverFields_sameDecoder _ _ _) hl⟩
  | x122 f hf hd hid hcat =>
    have hr := Ran.x122 (s := s.withRecordOf u) f hf hd hid hcat
    rw [State.deliverFields_clearDiag_withRecordOf] at hr
    exact ⟨_, hr, rfl, State.sameLive_congr (State.deliverFields_sameDecoder _ _ _) hl⟩
  | xUnknown f hf hd hcat => exact ⟨_, .xUnknown (s := s.withRecordOf u) f hf hd hcat, rfl, hl⟩

end Stale

/-- Settles O44: both states decode what is presented alike, and the rule that runs reads live registers only
(`Ran.withRecordOf`). -/
theorem staleRegistersAreUnobservable : Obligations.StaleRegistersAreUnobservable := by
  intro s t s' _ hwt heq hstep
  obtain ⟨ht, hl⟩ := State.observablyEqual_iff.mp heq
  obtain ⟨i, hdec, hexec⟩ := step_next hstep
  have hdec' := (decodePresented_withRecordOf hl s.nextPresented).trans hdec
  rw [ht] at hwt
  obtain ⟨t', hrun, hout⟩ := (exec_ran hexec).withRecordOf (u := t) hl hwt
  rw [ht]
  exact ⟨t', step_of_ran hdec' hrun, State.observablyEqual_iff.mpr hout⟩

/-! ### Frames in progress -/

/-- `n` bytes are left until the frame in progress closes (R84, C10); none are left in `AwaitSync1`. -/
def State.closesIn (s : State) (n : Nat) : Prop :=
  s.state = .awaitSync1 ∧ n = 0 ∨
  s.state = .awaitChecksum ∧ n = 1 ∨
  s.state = .awaitPayload ∧ n = s.lengthExpected.toNat - s.lengthReceived.toNat + 1 ∨
  s.state = .awaitId ∧ n = s.lengthExpected.toNat + 2

section Parked
variable {s : State} {n : Nat}

theorem State.closesIn_zero (h : s.closesIn 0) : s.state = .awaitSync1 := by
  obtain ⟨hs, -⟩ | ⟨-, hn⟩ | ⟨-, hn⟩ | ⟨-, hn⟩ := h
  · exact hs
  all_goals cases hn

theorem State.closesIn_pos (h : s.closesIn n) (hn : 0 < n) : s.state ≠ .awaitSync1 := by
  obtain ⟨-, rfl⟩ | ⟨hs, -⟩ | ⟨hs, -⟩ | ⟨hs, -⟩ := h
  · cases hn
  all_goals simp [hs]

/-- The checksum byte closes the frame, good or bad (R78, R79). -/
theorem ran_feed_awaitChecksum (b : Byte) (hw : s.wf = true) (hs : s.state = .awaitChecksum) :
    ∃ i t, decodeKey s.keyRegs (stepKeyOf s.state b) = .ok i ∧ Ran s i t ∧ t.closesIn 0 := by
  rw [hs, decodeKey_stepKeyOf]
  obtain ⟨buf, hbuf, -, hlen, -⟩ := State.wf_awaitChecksum hw hs
  by_cases hb : b = s.cksum
  · exact ⟨.dCkOk b, _, by simp [KeyRegs.checksumMatches, hb], .ckOk b buf hw hs hb hbuf hlen,
      .inl ⟨State.dispatchFrame_state _ _, rfl⟩⟩
  · exact ⟨.dCkBad b, _, by simp [KeyRegs.checksumMatches, hb], .ckBad b hw hs hb, .inl ⟨rfl, rfl⟩⟩

/-- A payload byte leaves one byte fewer: the last one leaves the checksum byte alone (R76, R77). -/
theorem ran_feed_awaitPayload (b : Byte) (hw : s.wf = true) (hs : s.state = .awaitPayload) :
    ∃ i t, decodeKey s.keyRegs (stepKeyOf s.state b) = .ok i ∧ Ran s i t ∧
      t.closesIn (s.lengthExpected.toNat - s.lengthReceived.toNat) := by
  rw [hs, decodeKey_stepKeyOf]
  obtain ⟨buf, -, -, hlt, -, -, -, hroom⟩ := State.wf_awaitPayload hw hs
  by_cases hlast : s.lengthReceived.toNat + 1 = s.lengthExpected.toNat
  · exact ⟨.dPayLast b, _, by simp [KeyRegs.isLastByte, hlast], .payLast b hw hs hlast hroom,
      .inr (.inl ⟨rfl, by omega⟩)⟩
  · have hcount := toNat_succ_of_lt hlt
    exact ⟨.dPayMore b, _, by simp [KeyRegs.isLastByte, hlast], .payMore b hw hs hlast hroom,
      .inr (.inr (.inl ⟨hs, by simp only [hcount]; omega⟩))⟩

/-- The identifier byte leaves the payload and the checksum byte (R74, R75). -/
theorem ran_feed_awaitId (b : Byte) (hw : s.wf = true) (hs : s.state = .awaitId) :
    ∃ i t, decodeKey s.keyRegs (stepKeyOf s.state b) = .ok i ∧ Ran s i t ∧ t.closesIn (s.lengthExpected.toNat + 1) := by
  rw [hs, decodeKey_stepKeyOf]
  obtain ⟨hrec, -⟩ := State.wf_awaitId hw hs
  by_cases hz : s.lengthExpected = 0#8
  · exact ⟨.dIdZ b, _, by simp [KeyRegs.hasPayload, hz], .idZ b hw hs hz, .inr (.inl ⟨rfl, by simp [hz]⟩)⟩
  · exact ⟨.dIdNz b, _, by simp [KeyRegs.hasPayload, hz], .idNz b hw hs hz, .inr (.inr (.inl ⟨rfl, by simp [hrec]⟩))⟩

/-- One byte of a frame in progress, whatever its value, leaves one byte fewer. -/
theorem ran_feed_closesIn (b : Byte) (hw : s.wf = true) (h : s.closesIn (n + 1)) :
    ∃ i t, decodeKey s.keyRegs (stepKeyOf s.state b) = .ok i ∧ Ran s i t ∧ t.closesIn n := by
  obtain ⟨-, hn⟩ | ⟨hs, hn⟩ | ⟨hs, hn⟩ | ⟨hs, hn⟩ := h
  · cases hn
  · cases hn
    exact ran_feed_awaitChecksum b hw hs
  · cases hn
    exact ran_feed_awaitPayload b hw hs
  · cases hn
    exact ran_feed_awaitId b hw hs

theorem step_feed_closesIn {b : Byte} {rest : List Presented} (hw : s.wf = true) (h : s.closesIn (n + 1))
    (hin : s.input = feedCommand b :: rest) :
    ∃ t, step s = .next t ∧ t.wf = true ∧ t.input = rest ∧ t.closesIn n := by
  obtain ⟨i, t, hdec, hr, hclose⟩ := ran_feed_closesIn (s := s.consume) b hw h
  obtain ⟨-, hrest⟩ := hr.catalog_input
  have hstep : step s = .next t := (step_feed hin hdec).trans hr.exec_eq
  exact ⟨t, hstep, hr.wf hw, by simp [hrest, hin], hclose⟩

/-- By induction on the bytes: any number of them that the frame has still to take is taken. -/
theorem runSteps_feed_closesIn {bytes : List Byte} {rest : List Presented} (hw : s.wf = true)
    (h : s.closesIn (n + bytes.length)) (hin : s.input = feedAll bytes ++ rest) :
    ∃ t, runSteps bytes.length s = .next t ∧ t.input = rest ∧ t.closesIn n := by
  induction bytes generalizing s with
  | nil => exact ⟨s, rfl, hin, h⟩
  | cons b bytes ih =>
    obtain ⟨u, hstep, hwu, hinu, hu⟩ := step_feed_closesIn hw h hin
    obtain ⟨t, hrun, ht⟩ := ih hwu hu hinu
    exact ⟨t, by simpa only [List.length_cons, runSteps, hstep] using hrun, ht⟩

end Parked

/-- Settles O56: the bytes left are counted down to none, and after the first `n` of them, `n` short of all, the rest is
still left. -/
theorem parkedFrameClosesInBoundedBytes : Obligations.ParkedFrameClosesInBoundedBytes := by
  intro s bytes rest hw hparked hin
  have hclose : s.closesIn bytes.length := .inr hparked
  constructor
  · obtain ⟨t, hrun, hrest, ht⟩ := runSteps_feed_closesIn (n := 0) hw (by rwa [Nat.zero_add]) hin
    exact ⟨t, hrun, State.closesIn_zero ht, hrest⟩
  · intro n hn
    have htake : (bytes.take n).length = n := List.length_take_of_le (Nat.le_of_lt hn)
    have hsplit : s.input = feedAll (bytes.take n) ++ (feedAll (bytes.drop n) ++ rest) := by
      rw [hin, ← List.append_assoc, feedAll, feedAll, feedAll, ← List.map_append, List.take_append_drop]
    obtain ⟨u, hrun, -, hu⟩ :=
      runSteps_feed_closesIn (n := bytes.length - n) hw (by rwa [htake, Nat.sub_add_cancel (Nat.le_of_lt hn)]) hsplit
    rw [htake] at hrun
    exact ⟨u, hrun, State.closesIn_pos hu (by omega)⟩

end Sys2Proof.Machine

/-! SUPPORT. The two statements about what a Decoder operation does not read: the outputs of an earlier step (R34, R46) and
the output stream of the Encoder (R27, R93). -/

namespace Sys2Proof.Machine

/-! ### Standing outputs -/

/-- IDLE clears the outputs and does nothing else (R34, R106). -/
theorem exec_idle_next {s u : State} (h : exec .idle s = .next u) : u = s.clearOutputs := by
  cases exec_ran h with
  | idle => rfl

/-- A Decoder operation clears the outputs before its effect, so outputs cleared beforehand make no difference (R34). -/
theorem exec_clearOutputs {i : Instr} (hi : i.isDecoderOp = true) (s : State) : exec i s.clearOutputs = exec i s := by
  cases i with
  | checksum | serialize | x121 | x122 | xUnknown => cases hi
  | _ => rfl

/-- Settles O45: all that IDLE leaves behind is cleared outputs, and a Decoder operation starts by clearing them. -/
theorem idleStepsAreInvisible : Obligations.IdleStepsAreInvisible := by
  intro i s u hi hidle
  rw [exec_idle_next hidle]
  exact exec_clearOutputs hi s

/-! ### The Encoder's output stream -/

/-- `s` with `out` on the output stream: all that SERIALIZE writes (R90, R93). -/
def State.withSerialOut (s : State) (out : List Byte) : State := { s with serialOut := out }

theorem State.withSerialOut_sameDecoder (s : State) (out : List Byte) : (s.withSerialOut out).sameDecoder s :=
  ⟨rfl, rfl, rfl, rfl, rfl, rfl, rfl⟩

/-- Everything SERIALIZE can do when it answers a next state (R90, R92). -/
theorem exec_serialize_next {id : Byte} {p : List Byte} {s u : State} :
    exec (.serialize id p) s = .next u ↔ p.length ≤ 255 ∧ u = s.withSerialOut (wireFrame Config.dirReq id p) := by
  constructor
  · intro h
    cases exec_ran h with
    | serialize _ _ hp => exact ⟨hp, rfl⟩
  · rintro ⟨hp, rfl⟩
    exact (Ran.serialize id p hp).exec_eq

/-- The dispatch stage does not touch the output stream (R96). -/
theorem State.deliverFields_withSerialOut (n : Nat) (f : Frame) (s : State) (out : List Byte) :
    (s.withSerialOut out).deliverFields n f = (s.deliverFields n f).withSerialOut out := by
  unfold State.deliverFields
  split <;> rfl

theorem State.dispatchFrame_withSerialOut (f : Frame) (s : State) (out : List Byte) :
    (s.withSerialOut out).dispatchFrame f = (s.dispatchFrame f).withSerialOut out := by
  unfold State.dispatchFrame
  rw [show (s.withSerialOut out).catalog = s.catalog from rfl]
  split
  · exact State.deliverFields_withSerialOut _ f s out
  · rfl

/-- A Decoder operation neither reads nor writes the output stream: with another stream it runs by the same rule (R27). -/
theorem Ran.withSerialOut {s t : State} {i : Instr} (hr : Ran s i t) (hi : i.isDecoderOp = true) (out : List Byte) :
    Ran (s.withSerialOut out) i (t.withSerialOut out) := by
  cases hr with
  | sync1Hit hw hs => exact .sync1Hit hw hs
  | sync1Miss b hw hs hb => exact .sync1Miss b hw hs hb
  | sync2Hit hw hs => exact .sync2Hit hw hs
  | sync2Miss b hw hs hb => exact .sync2Miss b hw hs hb
  | dir b hw hs => exact .dir b hw hs
  | len b hw hs => exact .len b hw hs
  | idNz b hw hs hne => exact .idNz b hw hs hne
  | idZ b hw hs hz => exact .idZ b hw hs hz
  | payMore b hw hs hmore hroom => exact .payMore b hw hs hmore hroom
  | payLast b hw hs hlast hroom => exact .payLast b hw hs hlast hroom
  | ckOk b buf hw hs hb hbuf hlen =>
    rw [← State.dispatchFrame_withSerialOut]
    exact .ckOk (s := s.withSerialOut out) b buf hw hs hb hbuf hlen
  | ckBad b hw hs hb => exact .ckBad b hw hs hb
  | reset hw => exact .reset hw
  | idle hw => exact .idle hw
  | checksum | serialize | x121 | x122 | xUnknown => cases hi

/-- Settles O46: SERIALIZE only replaces the output stream, which the rule of the Decoder operation carries along
(`Ran.withSerialOut`). -/
theorem serializeCommutesWithTheDecoder : Obligations.SerializeCommutesWithTheDecoder := by
  intro i s t u id p hi hexec hser
  obtain ⟨hp, rfl⟩ := exec_serialize_next.mp hser
  exact ⟨State.withSerialOut_sameDecoder _ _, _, exec_serialize_next.mpr ⟨hp, rfl⟩,
    ((exec_ran hexec).withSerialOut hi _).exec_eq⟩

end Sys2Proof.Machine

/-! SUPPORT. The encodings of 30_encoding.md: the command word (R51), the step key (R52, R53, R64) and the identifier (R63),
each decoded and encoded. -/

namespace Sys2Proof

/-! ### The step key -/

/-- The keys of code 7 are those from 0x700 on (R17, R52). -/
theorem keyState_eq_unused7_iff (k : BitVec 11) : keyState k = .unused7 ↔ 0x700 ≤ k.toNat := by
  have hcode : ∀ c : BitVec 3, SeqState.ofCode c = .unused7 ↔ c = 7#3 := by decide
  have hbits : (k.extractLsb' 8 3).toNat = k.toNat / 256 % 8 := by
    simp [BitVec.extractLsb'_toNat, Nat.shiftRight_eq_div_pow]
  have hk := k.isLt
  rw [keyState, hcode, ← BitVec.toNat_inj, hbits]
  simp only [BitVec.toNat_ofNat]
  omega

/-- The operation a step key selects is encoded as that key, and the key's byte and the registers meet its constraints. -/
theorem encode_of_decodeKey {r : KeyRegs} {k : BitVec 11} {i : Instr} (h : decodeKey r k = .ok i) :
    encode i = .stepKey k ∧ i.wf = true ∧ i.cond r = true := by
  rw [← stepKeyOf_fields k] at h ⊢
  rw [decodeKey_stepKeyOf] at h
  generalize keyState k = st, keyByte k = b at h ⊢
  cases st with
  | awaitSync1 | awaitSync2 =>
    simp only [Except.ok.injEq] at h
    split at h
    next hb => cases h; exact ⟨by rw [hb]; rfl, rfl, rfl⟩
    next hb => cases h; exact ⟨rfl, bne_iff_ne.mpr hb, rfl⟩
  | awaitDirection | awaitLength =>
    cases h
    exact ⟨rfl, rfl, rfl⟩
  | awaitId | awaitPayload | awaitChecksum =>
    simp only [Except.ok.injEq] at h
    split at h
    next hcond => cases h; exact ⟨rfl, rfl, hcond⟩
    next hcond => cases h; exact ⟨rfl, rfl, (Bool.not_eq_true' _).mpr (eq_false_of_ne_true hcond)⟩
  | unused7 => cases h

/-- Settles O27: each word falls in the case of its position in `decodeKey_stepKeyOf`, of its control bits in
`decodeCommand_commandWord` or of its identifier in R63's table, and `wf` and `cond` choose the operation there. -/
theorem decodeOfEncode : Obligations.DecodeOfEncode := by
  intro i r hwf hcond
  cases i with
  | dSync1Hit => exact decodeKey_stepKeyOf r .awaitSync1 Config.sync1
  | dSync2Hit => exact decodeKey_stepKeyOf r .awaitSync2 Config.sync2
  | dDir b => exact decodeKey_stepKeyOf r .awaitDirection b
  | dLen b => exact decodeKey_stepKeyOf r .awaitLength b
  | dSync1Miss b | dSync2Miss b =>
    have hb : b ≠ _ := bne_iff_ne.mp hwf
    exact (decodeKey_stepKeyOf r _ b).trans (congrArg Except.ok (if_neg hb))
  | dIdNz b | dPayLast b | dCkOk b => exact (decodeKey_stepKeyOf r _ b).trans (congrArg Except.ok (if_pos hcond))
  | dIdZ b | dPayMore b | dCkBad b =>
    have hneg := ne_true_of_eq_false ((Bool.not_eq_true' _).mp hcond)
    exact (decodeKey_stepKeyOf r _ b).trans (congrArg Except.ok (if_neg hneg))
  | reset => exact Machine.decodePresented_reset r
  | idle => exact Machine.decodePresented_idle r
  | checksum | serialize | x121 | x122 => rfl
  | xUnknown id =>
    obtain ⟨h121, h122⟩ : id ≠ 0x79#8 ∧ id ≠ 0x7A#8 := by simpa [Instr.wf] using hwf
    simp [encode, decode, decodeFrameId, h121, h122]

/-- Settles O28: a key below 0x700 selects an operation (`decodeKey_isOk`), which is encoded as the key; any other operation
encoded as the key is decoded from it too (`decodeOfEncode`) and so is the same one. -/
theorem everyStepKeySelectsOneTransition : Obligations.EveryStepKeySelectsOneTransition := by
  intro r k
  constructor
  · intro hk
    have hst : keyState k ≠ .unused7 := fun h => absurd ((keyState_eq_unused7_iff k).mp h) (by omega)
    obtain ⟨i, hdec⟩ := decodeKey_isOk r hst
    obtain ⟨henc, hwf, hcond⟩ := encode_of_decodeKey hdec
    refine ⟨i, hdec, henc, hwf, hcond, fun j hjwf hjcond hjenc => ?_⟩
    have hj : decode r (encode j) = .ok j := decodeOfEncode j r hjwf hjcond
    rw [hjenc] at hj
    exact Except.ok.inj (hj.symm.trans hdec)
  · intro hk
    have hkey := stepKeyOf_fields k
    rw [(keyState_eq_unused7_iff k).mpr hk] at hkey
    rw [← hkey, decodeKey_stepKeyOf]

/-! ### The command word -/

/-- Settles O29: bits 9 and 8 of a 10-bit word as arithmetic on its number, then the low byte. -/
theorem commandWordSelects : Obligations.CommandWordSelects := by
  intro c
  have hc := c.isLt
  simp only [decodeCommand, BitVec.getLsbD, Nat.testBit_eq_decide_div_mod_eq, decide_eq_true_eq]
  refine ⟨fun h => if_pos (by omega), fun h h' => ?_, fun h => ?_⟩
  · have hbyte : c.extractLsb' 0 8 = BitVec.ofNat 8 (c.toNat - 0x100) := by
      apply BitVec.eq_of_toNat_eq
      simp only [BitVec.extractLsb'_toNat, Nat.shiftRight_zero, BitVec.toNat_ofNat]
      omega
    rw [if_neg (by omega), if_pos (by omega), hbyte]
  · rw [if_neg (by omega), if_neg (by omega)]

/-- Settles O30: the four step keys are `stepKeyOf` of their position and byte, and the other words are looked up. -/
theorem tableWordsDecode : Obligations.TableWordsDecode :=
  ⟨fun r => decodeKey_stepKeyOf r .awaitSync1 0x24#8, fun r => decodeKey_stepKeyOf r .awaitSync2 0x4D#8,
    fun r => decodeKey_stepKeyOf r .awaitSync2 0x24#8, fun r => decodeKey_stepKeyOf r .awaitLength 0x0C#8,
    rfl, rfl, rfl, rfl, rfl⟩

end Sys2Proof

namespace Sys2Proof.Machine

/-! ### The identifier of a delivered frame -/

/-- The tested catalog knows 121 and 122 alone (R12). -/
theorem fieldCountOf_tested_eq_none {id : Byte} (h121 : id ≠ 0x79#8) (h122 : id ≠ 0x7A#8) :
    fieldCountOf Config.testedCatalog id = none := by
  simp [Config.testedCatalog, fieldCountOf, h121.symm, h122.symm]

/-- The operation R63's table selects on the frame that stands at the stage is, with the tested catalog, the dispatch stage
(R96, R97). -/
theorem exec_decodeFrameId {s : State} {f : Frame} (hf : s.frameOut = some f) (hd : s.dispatchOut = none)
    (hcat : s.catalog = Config.testedCatalog) : exec (decodeFrameId f.id) s = .next (s.clearDiag.dispatchFrame f) := by
  unfold decodeFrameId State.dispatchFrame
  rw [State.clearDiag_catalog]
  by_cases h121 : f.id = 0x79#8
  · have hn : fieldCountOf s.catalog f.id = some 6 := by rw [hcat, h121]; rfl
    rw [if_pos h121, hn]
    exact (Ran.x121 f hf hd h121 hn).exec_eq
  by_cases h122 : f.id = 0x7A#8
  · have hn : fieldCountOf s.catalog f.id = some 3 := by rw [hcat, h122]; rfl
    rw [if_neg h121, if_pos h122, hn]
    exact (Ran.x122 f hf hd h122 hn).exec_eq
  · have hn : fieldCountOf s.catalog f.id = none := by rw [hcat, fieldCountOf_tested_eq_none h121 h122]
    rw [if_neg h121, if_neg h122, hn]
    exact (Ran.xUnknown f hf hd hn).exec_eq

/-- Settles O22: D.CK.OK ends in the dispatch stage on `closed s f` (`Ran.ckOk`), and so does the operation the identifier
selects there. -/
theorem dispatchRunsTheSelectedOperation : Obligations.DispatchRunsTheSelectedOperation := by
  intro s b buf hw hs hb hbuf hcat f
  obtain ⟨buf', hbuf', -, hlen, -⟩ := State.wf_awaitChecksum hw hs
  cases hbuf.symm.trans hbuf'
  have hck : exec (.dCkOk b) s = .next ((closed s f).dispatchFrame f) := (Ran.ckOk b buf hw hs hb hbuf hlen).exec_eq
  have hx : exec (decodeFrameId f.id) (closed s f) = .next ((closed s f).dispatchFrame f) :=
    exec_decodeFrameId (s := closed s f) rfl rfl hcat
  exact hck.trans hx.symm

end Sys2Proof.Machine

/-! SUPPORT. The script lines of R65 and R66: what they expand to, and what a script leaves on the output stream. -/

namespace Sys2Proof.Machine

/-! ### Expansion -/

/-- The wire frame byte by byte (R54, R61). -/
theorem wireFrame_eq (d id : Byte) (p : List Byte) :
    wireFrame d id p =
      [0x24#8, 0x4D#8, d, BitVec.ofNat 8 p.length, id] ++ p ++ [BitVec.ofNat 8 p.length ^^^ id ^^^ checksumOf p] := by
  rw [wireFrame, frameChecksum_eq]
  rfl

/-- A script's second part expands against the `OUT` its first part leaves. -/
theorem expandScript_append (out : List Byte) (first second : List ScriptLine) :
    expandScript out (first ++ second) =
      expandScript out first ++ expandScript (first.foldl ScriptLine.outAfter out) second := by
  induction first generalizing out with
  | nil => rfl
  | cons line first ih => simp [expandScript, ih]

/-- Settles O57: most lines are their own expansion, a frame's bytes are `wireFrame_eq`, and the last clause is
`expandScript_append` for one line. -/
theorem scriptLinesExpand : Obligations.ScriptLinesExpand := by
  refine ⟨fun _ _ => rfl, fun _ _ => ⟨rfl, rfl⟩, fun _ => rfl, ?_, fun _ _ => ⟨rfl, rfl, rfl⟩, fun _ _ _ => rfl, ?_, ?_, ?_⟩
  · intro out d id p _
    exact congrArg feedAll (wireFrame_eq d id p)
  · intro out id p hp
    exact (if_pos hp).trans (wireFrame_eq Config.dirReq id p)
  · intro out line hserialize hrequest
    cases line with
    | serialize id p => exact absurd rfl (hserialize id p)
    | request id => exact absurd rfl (hrequest id)
    | _ => rfl
  · intro out before line
    simp [expandScript_append, expandScript]

/-- Settles O58: the length byte of `wireFrame_eq` is the count modulo 256, and the refused SERIALIZE takes the other branch
of `ScriptLine.outAfter`. -/
theorem overlongScriptLines : Obligations.OverlongScriptLines := by
  intro out d id p hp
  refine ⟨⟨BitVec.ofNat 8 p.length, BitVec.toNat_ofNat .., congrArg feedAll (wireFrame_eq d id p)⟩, if_neg ?_⟩
  simpa [Config.lenMax] using hp

/-! ### The output stream -/

/-- `OUT` after a presented operation has run: SERIALIZE replaces it, a command word leaves it (R90, R93). -/
def outAfterPresented (out : List Byte) : Presented → List Byte
  | .command _ => out
  | .callSerialize id payload => ScriptLine.outAfter out (.serialize id payload)

/-- No operation of the Decoder or of the dispatch stage writes the output stream (R27). -/
theorem Ran.serialOut_eq {s t : State} {i : Instr} (hr : Ran s i t) (hi : i.isDecoderOp = true) :
    t.serialOut = s.serialOut := by
  cases hr with
  | ckOk => exact State.dispatchFrame_serialOut _ _
  | checksum | serialize | x121 | x122 | xUnknown => cases hi
  | _ => rfl

/-- What a step that completes leaves on the output stream. -/
theorem step_serialOut {s t : State} (h : step s = .next t) : t.serialOut = outAfterPresented s.serialOut s.nextPresented := by
  obtain ⟨i, hdec, hexec⟩ := step_next h
  cases hp : s.nextPresented with
  | command c =>
    rw [hp] at hdec
    obtain ⟨j, hj, hop⟩ | ⟨k, -, hk⟩ := decodePresented_command s.keyRegs c
    · cases hj.symm.trans hdec
      exact (exec_ran hexec).serialOut_eq hop
    · cases hk.symm.trans hdec
  | callSerialize id p =>
    rw [hp] at hdec
    cases hdec
    obtain ⟨hlen, rfl⟩ := exec_serialize_next.mp hexec
    exact (if_pos hlen).symm

/-- A run that completes, its first step apart. -/
theorem runSteps_succ_next {n : Nat} {s t : State} (h : runSteps (n + 1) s = .next t) :
    ∃ u, step s = .next u ∧ runSteps n u = .next t := by
  unfold runSteps at h
  split at h
  · exact ⟨_, ‹_›, h⟩
  all_goals cases h

/-- A run that takes all that is presented leaves an empty queue and the `OUT` of the operations taken. -/
theorem runSteps_serialOut {s t : State} (h : runSteps s.input.length s = .next t) :
    t.input = [] ∧ t.serialOut = s.input.foldl outAfterPresented s.serialOut := by
  generalize hin : s.input = ps at h ⊢
  induction ps generalizing s with
  | nil => cases h; exact ⟨hin, rfl⟩
  | cons p ps ih =>
    obtain ⟨u, hstep, hrun⟩ := runSteps_succ_next h
    have hout := step_serialOut hstep
    rw [State.nextPresented_of_input_cons hin] at hout
    obtain ⟨hrest, -⟩ := stepConsumesOneAndKeepsTheCatalog s u hstep
    rw [List.foldl_cons, ← hout]
    exact ih (by rw [hrest, hin, List.tail_cons]) hrun

theorem foldl_outAfterPresented_feedAll (out bytes : List Byte) :
    (feedAll bytes).foldl outAfterPresented out = out := by
  induction bytes with
  | nil => rfl
  | cons b bytes ih => exact ih

/-- The operations a line presents have its `OUT`. -/
theorem foldl_outAfterPresented_expand (out : List Byte) (line : ScriptLine) :
    (line.expand out).foldl outAfterPresented out = line.outAfter out := by
  cases line with
  | feeds | feedsOut | frame => exact foldl_outAfterPresented_feedAll out _
  | _ => rfl

theorem foldl_outAfterPresented_expandScript (out : List Byte) (script : List ScriptLine) :
    (expandScript out script).foldl outAfterPresented out = script.foldl ScriptLine.outAfter out := by
  induction script generalizing out with
  | nil => rfl
  | cons line script ih => rw [expandScript, List.foldl_append, foldl_outAfterPresented_expand, ih, List.foldl_cons]

/-- Settles O59: the run leaves the `OUT` of the operations presented, which is that of the script's lines. -/
theorem scriptLeavesItsOut : Obligations.ScriptLeavesItsOut := by
  intro s t script hin hrun
  rw [← hin] at hrun
  obtain ⟨hdone, hout⟩ := runSteps_serialOut hrun
  rw [hin, foldl_outAfterPresented_expandScript] at hout
  exact ⟨hdone, hout⟩

end Sys2Proof.Machine

/-! SUPPORT. The twelve transitions (R68 to R79): no operation reads the queue, so the rule of an operation is at once what
the FEED step of its byte does; then what each transition leaves behind. -/

namespace Sys2Proof.Machine

/-! ### The FEED step of a transition -/

/-- The dispatch stage does not look at the queue (R96). -/
theorem State.deliverFields_input_update (n : Nat) (f : Frame) (s : State) (rest : List Presented) :
    ({ s with input := rest } : State).deliverFields n f = { s.deliverFields n f with input := rest } := by
  unfold State.deliverFields
  split <;> rfl

theorem State.dispatchFrame_input_update (f : Frame) (s : State) (rest : List Presented) :
    ({ s with input := rest } : State).dispatchFrame f = { s.dispatchFrame f with input := rest } := by
  unfold State.dispatchFrame
  dsimp only
  split
  · exact State.deliverFields_input_update _ f s rest
  · rfl

section Feed
variable {s t : State} {i : Instr}

/-- A Decoder operation does not look at what waits behind it: with another queue it runs by the same rule (R43). -/
theorem Ran.withInput (hr : Ran s i t) (hi : i.isDecoderOp = true) (rest : List Presented) :
    Ran { s with input := rest } i { t with input := rest } := by
  cases hr with
  | sync1Hit hw hs => exact .sync1Hit hw hs
  | sync1Miss b hw hs hb => exact .sync1Miss b hw hs hb
  | sync2Hit hw hs => exact .sync2Hit hw hs
  | sync2Miss b hw hs hb => exact .sync2Miss b hw hs hb
  | dir b hw hs => exact .dir b hw hs
  | len b hw hs => exact .len b hw hs
  | idNz b hw hs hne => exact .idNz b hw hs hne
  | idZ b hw hs hz => exact .idZ b hw hs hz
  | payMore b hw hs hmore hroom => exact .payMore b hw hs hmore hroom
  | payLast b hw hs hlast hroom => exact .payLast b hw hs hlast hroom
  | ckOk b buf hw hs hb hbuf hlen =>
    rw [← State.dispatchFrame_input_update]
    exact .ckOk (s := { s with input := rest }) b buf hw hs hb hbuf hlen
  | ckBad b hw hs hb => exact .ckBad b hw hs hb
  | reset hw => exact .reset hw
  | idle hw => exact .idle hw
  | checksum | serialize | x121 | x122 | xUnknown => cases hi

/-- An operation that a step key encodes is a Decoder operation (R52). -/
theorem isDecoderOp_of_encode {k : BitVec 11} (h : encode i = .stepKey k) : i.isDecoderOp = true := by
  cases i with
  | checksum | serialize | x121 | x122 | xUnknown => cases h
  | _ => rfl

/-- The rule of a Decoder operation includes the operand constraint and the register condition of its row (R52). -/
theorem Ran.wf_cond (hr : Ran s i t) (hi : i.isDecoderOp = true) : i.wf = true ∧ i.cond s.keyRegs = true := by
  cases hr with
  | sync1Miss b _ _ hb | sync2Miss b _ _ hb => exact ⟨bne_iff_ne.mpr hb, rfl⟩
  | idNz _ _ _ hl | idZ _ _ _ hl => exact ⟨rfl, by simp [Instr.cond, KeyRegs.hasPayload, hl]⟩
  | payMore _ _ _ hl | payLast _ _ _ hl => exact ⟨rfl, by simp [Instr.cond, KeyRegs.isLastByte, hl]⟩
  | ckOk _ _ _ _ hb | ckBad _ _ _ hb => exact ⟨rfl, by simp [Instr.cond, KeyRegs.checksumMatches, hb]⟩
  | checksum | serialize | x121 | x122 | xUnknown => cases hi
  | _ => exact ⟨rfl, rfl⟩

/-- A transition that runs by its rule is also what the step does that feeds its byte (R52, R67). -/
theorem Ran.exec_and_feed {st : SeqState} {b : Byte} {rest : List Presented} (hr : Ran s i t) (hs : s.state = st)
    (henc : encode i = .stepKey (stepKeyOf st b)) :
    exec i s = .next t ∧ (s.input = feedCommand b :: rest → step s = .next { t with input := rest }) := by
  refine ⟨hr.exec_eq, fun hin => ?_⟩
  have hi := isDecoderOp_of_encode henc
  obtain ⟨hwf, hcond⟩ := hr.wf_cond hi
  have hdec : decodeKey s.keyRegs (stepKeyOf s.state b) = .ok i := by
    have h := decodeOfEncode i s.keyRegs hwf hcond
    rwa [henc, ← hs] at h
  rw [step_feed hin hdec, State.consume_of_input hin]
  exact (hr.withInput hi rest).exec_eq

end Feed

/-! ### The sync pair -/

/-- Settles O1: the rule of D.SYNC1.HIT, and its FEED step. -/
theorem sync1HitAdvancesToSync2 : Obligations.Sync1HitAdvancesToSync2 :=
  fun _ _ hw hs => (Ran.sync1Hit hw hs).exec_and_feed hs rfl

/-- Settles O2: the rule of D.SYNC1.MISS, and its FEED step. -/
theorem sync1MissDiscardsTheByte : Obligations.Sync1MissDiscardsTheByte :=
  fun _ b _ hw hs hb => (Ran.sync1Miss b hw hs hb).exec_and_feed hs rfl

/-- Settles O3: the rule of D.SYNC2.HIT, and its FEED step. -/
theorem sync2HitAdvancesToDirection : Obligations.Sync2HitAdvancesToDirection :=
  fun _ _ hw hs => (Ran.sync2Hit hw hs).exec_and_feed hs rfl

/-- Settles O4: the rule of D.SYNC2.MISS, and its FEED step. -/
theorem sync2MissRestarts : Obligations.Sync2MissRestarts :=
  fun _ b _ hw hs hb => (Ran.sync2Miss b hw hs hb).exec_and_feed hs rfl

/-! ### The header -/

/-- Settles O5: the rule of D.DIR, and its FEED step. -/
theorem directionByteIsConsumedOnly : Obligations.DirectionByteIsConsumedOnly :=
  fun _ b _ hw hs => (Ran.dir b hw hs).exec_and_feed hs rfl

/-- Settles O6: the rule of D.LEN, and its FEED step. -/
theorem lengthByteStartsTheChecksum : Obligations.LengthByteStartsTheChecksum :=
  fun _ b _ hw hs => (Ran.len b hw hs).exec_and_feed hs rfl

/-- Settles O7: in `AwaitId` the checksum so far is the length byte (R30), so folding in `b` gives `length_expected ^ b`. -/
theorem identifierByteWithPayload : Obligations.IdentifierByteWithPayload := by
  intro s b rest hw hs hne t
  obtain ⟨-, hck⟩ := State.wf_awaitId hw hs
  obtain ⟨hexec, hstep⟩ := (Ran.idNz b hw hs hne).exec_and_feed (rest := rest) hs rfl
  exact ⟨hexec, rfl, congrArg (· ^^^ b) hck, hstep⟩

/-- Settles O8: in `AwaitId` the checksum so far is the length byte (R30), here 0, so folding in `b` gives `b`. -/
theorem identifierByteWithoutPayload : Obligations.IdentifierByteWithoutPayload := by
  intro s b rest hw hs hz t
  obtain ⟨-, hck⟩ := State.wf_awaitId hw hs
  obtain ⟨hexec, hstep⟩ := (Ran.idZ b hw hs hz).exec_and_feed (rest := rest) hs rfl
  have hfold : s.cksum ^^^ b = b := by rw [hck, hz, BitVec.zero_xor]
  exact ⟨hexec, rfl, hfold, hstep⟩

/-! ### The payload -/

/-- Settles O9: the cell at the cursor exists (R24), the abstract buffer grows by the byte, and the count stays below
`length_expected`, so that it does not wrap (R89). -/
theorem payloadByteIsAppended : Obligations.PayloadByteIsAppended := by
  intro s b buf rest hw hs hmore hbuf t
  obtain ⟨-, -, -, hlt, -, -, -, hroom⟩ := State.wf_awaitPayload hw hs
  obtain ⟨hexec, hstep⟩ := (Ran.payMore b hw hs hmore hroom).exec_and_feed (rest := rest) hs rfl
  exact ⟨hexec, State.append_buf b hbuf, toNat_succ_of_lt hlt, fun k hk => Memory.read_put_other s.mem b hk, hstep⟩

/-- Settles O10: as for D.PAY.MORE, and the count reaches `length_expected`, which is also the number of bytes in the
buffer. -/
theorem lastPayloadByteAwaitsTheChecksum : Obligations.LastPayloadByteAwaitsTheChecksum := by
  intro s b buf rest hw hs hlast hbuf t
  obtain ⟨-, -, -, hlt, -, -, hcur, hroom⟩ := State.wf_awaitPayload hw hs
  obtain ⟨hexec, hstep⟩ := (Ran.payLast b hw hs hlast hroom).exec_and_feed (rest := rest) hs rfl
  have hcount : s.lengthReceived + 1#8 = s.lengthExpected := BitVec.eq_of_toNat_eq ((toNat_succ_of_lt hlt).trans hlast)
  have hlen : (buf ++ [b]).length = s.lengthExpected.toNat := by
    rw [List.length_append, State.buf_length hbuf, hcur]
    exact hlast
  exact ⟨hexec, State.append_buf b hbuf, hcount, hlen, fun k hk => Memory.read_put_other s.mem b hk, hstep⟩

/-! ### Closing the frame -/

/-- The formula of R99 field by field: field 0 is the first four bytes, the others are the fields of the rest. -/
theorem fieldsOf_succ (b0 b1 b2 b3 : Byte) (p : List Byte) (n : Nat) :
    fieldsOf (b0 :: b1 :: b2 :: b3 :: p) (n + 1) = le32 b0 b1 b2 b3 :: fieldsOf p n := by
  simp only [fieldsOf, List.range_succ_eq_map, List.map_cons, List.map_map]
  rfl

/-- Cutting a payload of `4 * n` bytes gives the fields of R99's formula. -/
theorem cutFields_eq_fieldsOf {n : Nat} {p : List Byte} (h : p.length = 4 * n) : cutFields n p = some (fieldsOf p n) := by
  induction n generalizing p with
  | zero =>
    rw [List.length_eq_zero_iff.mp h]
    rfl
  | succ n ih =>
    match p, h with
    | b0 :: b1 :: b2 :: b3 :: rest, h =>
      have hrest : rest.length = 4 * n := by simp only [List.length_cons] at h; omega
      rw [fieldsOf_succ, cutFields, ih hrest]
      rfl

/-- Settles O11: the frame event is emitted by `Ran.ckOk`, and the three cases of the dispatch stage are those of the
catalog entry. -/
theorem goodChecksumDeliversTheFrame : Obligations.GoodChecksumDeliversTheFrame := by
  intro s b buf rest hw hs hb hbuf f t t'
  obtain ⟨buf', hbuf', -, hlen, -⟩ := State.wf_awaitChecksum hw hs
  cases hbuf.symm.trans hbuf'
  have hstage : (closed s f).dispatchFrame f = t' := by
    obtain ⟨hcat, h⟩ | ⟨n, fs, hcat, hcut, h4, h⟩ | ⟨n, hcat, -, h4, h⟩ := State.dispatchFrame_cases f (closed s f)
    · rw [h]
      simp only [t', show fieldCountOf s.catalog s.msgId = none from hcat]
      rfl
    · cases (cutFields_eq_fieldsOf h4).symm.trans hcut
      rw [h]
      simp only [t', show fieldCountOf s.catalog s.msgId = some n from hcat, if_pos (show buf.length = 4 * n from h4)]
      simp [State.emitDispatch, closed, t, f]
    · rw [h]
      simp only [t', show fieldCountOf s.catalog s.msgId = some n from hcat, if_neg (show ¬ buf.length = 4 * n from h4)]
      rfl
  obtain ⟨hexec, hstep⟩ := (Ran.ckOk b buf hw hs hb hbuf hlen).exec_and_feed (rest := rest) hs rfl
  rw [← hstage]
  exact ⟨hexec, hlen, hstep⟩

/-- Settles O12: the rule of D.CK.BAD, and its FEED step. -/
theorem badChecksumDropsTheFrame : Obligations.BadChecksumDropsTheFrame :=
  fun _ b _ hw hs hb => (Ran.ckBad b hw hs hb).exec_and_feed hs rfl

end Sys2Proof.Machine

/-! SUPPORT. Selection and completion (R62, R63, R67, R115): a selected operation completes, what a legal environment
presents is selected, and only D.CK.OK emits a frame event (R80). -/

namespace Sys2Proof

/-- A step key determines its position and its byte (R52). -/
theorem stepKeyOf_inj {st st' : SeqState} {b b' : Byte} (h : stepKeyOf st b = stepKeyOf st' b') : st = st' ∧ b = b' :=
  ⟨by simpa using congrArg keyState h, by simpa using congrArg keyByte h⟩

end Sys2Proof

namespace Sys2Proof.Machine

/-! ### Completion -/

section Selected
variable {s : State} {i : Instr}

/-- An operation of the dispatch stage that the standing frame event selects (R63, R96). -/
theorem State.dispatchStep_selected {selected : Frame → Bool} {effect : Frame → State → State} {f : Frame}
    (hf : s.stageFrame? = some f) (hsel : selected f = true) :
    s.dispatchStep selected effect = .next (effect f s.clearDiag) := by
  simp only [State.dispatchStep, hf, hsel, if_true]

theorem State.dispatchStep_notSelected {selected : Frame → Bool} {effect : Frame → State → State}
    (hsel : ∀ f, s.stageFrame? = some f → selected f = false) : s.dispatchStep selected effect = .refused .notSelected := by
  unfold State.dispatchStep
  split
  next f hf => rw [hsel f hf]; rfl
  next => rfl

/-- D.ID.Z's "Selected by" in the words of R52's `cond` column; for the other transitions the two agree by definition. -/
theorem selectedIn_dIdZ (b : Byte) :
    selectedIn s (.dIdZ b) = (s.state == .awaitId && !s.keyRegs.hasPayload) := by
  simp only [selectedIn, KeyRegs.hasPayload, State.keyRegs_lengthExpected, bne, Bool.not_not]

/-- Where its "Selected by" holds, an operation completes on a well-formed state: a payload byte has room (R24) and a
closing frame has its buffer contents. -/
theorem exec_completes_of_selectedIn (hw : s.wf = true) (hsel : selectedIn s i = true) : ∃ t, exec i s = .next t := by
  cases i with
  | dIdZ b =>
    rw [selectedIn_dIdZ] at hsel
    simp only [exec]
    exact ⟨_, State.decoderStep_selected hw hsel⟩
  | dPayMore b | dPayLast b =>
    obtain ⟨hs, -⟩ : s.state = .awaitPayload ∧ _ := by simpa only [selectedIn, Bool.and_eq_true, beq_iff_eq] using hsel
    obtain ⟨-, -, -, -, -, -, -, hroom⟩ := State.wf_awaitPayload hw hs
    simp only [exec]
    exact ⟨_, (State.decoderStep_selected hw hsel).trans (State.bufAppend_room b _ (s := s.clearOutputs) hroom)⟩
  | dCkOk b =>
    obtain ⟨hs, hb⟩ : s.state = .awaitChecksum ∧ b = s.cksum := by
      simpa only [selectedIn, Bool.and_eq_true, beq_iff_eq] using hsel
    obtain ⟨buf, hbuf, -, hlen, -⟩ := State.wf_awaitChecksum hw hs
    exact ⟨_, (Ran.ckOk b buf hw hs hb hbuf hlen).exec_eq⟩
  | checksum l => exact ⟨_, rfl⟩
  | serialize id p => exact ⟨_, if_pos (of_decide_eq_true hsel)⟩
  | x121 | x122 | xUnknown =>
    simp only [selectedIn] at hsel
    split at hsel
    next f hf => exact ⟨_, State.dispatchStep_selected hf hsel⟩
    next => cases hsel
  | _ =>
    simp only [exec]
    exact ⟨_, State.decoderStep_selected hw hsel⟩

/-- Where its "Selected by" does not hold, an operation other than SERIALIZE is refused as not selected (log entry 5). -/
theorem exec_notSelected (hw : s.wf = true) (hsel : selectedIn s i = false) (hi : ∀ id p, i ≠ .serialize id p) :
    exec i s = .refused .notSelected := by
  cases i with
  | dIdZ b =>
    rw [selectedIn_dIdZ] at hsel
    simp only [exec]
    exact State.decoderStep_notSelected hw hsel
  | reset | idle | checksum => cases hsel
  | serialize id p => exact absurd rfl (hi id p)
  | x121 | x122 | xUnknown => exact State.dispatchStep_notSelected fun f hf => by simpa only [selectedIn, hf] using hsel
  | _ =>
    simp only [exec]
    exact State.decoderStep_notSelected hw hsel

end Selected

/-- Settles O23: a selected operation completes; SERIALIZE is not selected only where its payload is too long, and every
other operation checks its "Selected by". -/
theorem operationCompletesWhereSelected : Obligations.OperationCompletesWhereSelected := by
  intro i s hw
  refine ⟨exec_completes_of_selectedIn hw, fun hsel => ⟨?_, exec_notSelected hw hsel⟩⟩
  rintro ⟨id, p, rfl⟩
  exact if_neg (of_decide_eq_false hsel)

/-- What a legal environment presents decodes, in a well-formed state, to an operation that is selected there (R52, R53). -/
theorem decodePresented_selected {s : State} {p : Presented} (hw : s.wf = true) (hp : p.legal = true) :
    ∃ i, decodePresented s.keyRegs p = .ok i ∧ selectedIn s i = true := by
  cases p with
  | callSerialize id payload => exact ⟨_, rfl, hp⟩
  | command c =>
    simp only [decodePresented]
    cases decodeCommand c with
    | reset => exact ⟨_, rfl, rfl⟩
    | idle => exact ⟨_, rfl, rfl⟩
    | feed b =>
      simp only [decodeKey_stepKeyOf, State.keyRegs_state]
      cases hs : s.state with
      | unused7 => exact absurd hs (State.wf_not_unused hw)
      | awaitDirection | awaitLength => exact ⟨_, rfl, beq_iff_eq.mpr hs⟩
      | awaitSync1 | awaitSync2 =>
        refine ⟨_, rfl, ?_⟩
        split
        next => simp [selectedIn, hs]
        next hb => simp [selectedIn, hs, hb]
      | awaitId | awaitPayload | awaitChecksum =>
        refine ⟨_, rfl, ?_⟩
        split
        all_goals next hcond =>
          simpa [selectedIn, hs, KeyRegs.hasPayload, KeyRegs.isLastByte, KeyRegs.checksumMatches] using hcond

/-- Settles O33: what is presented selects an operation, the operation completes, and it keeps well-formedness. -/
theorem everyPresentedOperationCompletes : Obligations.EveryPresentedOperationCompletes := by
  intro s hw hp
  obtain ⟨i, hdec, hsel⟩ := decodePresented_selected (s := s.consume) hw hp
  obtain ⟨t, hexec⟩ := exec_completes_of_selectedIn (s := s.consume) hw hsel
  exact ⟨t, (step_of_decode hdec).trans hexec, exec_keeps_wf (s := s.consume) hw hexec⟩

/-! ### The frame event -/

/-- A Decoder operation has a frame event only if it is D.CK.OK, and then it is the one of R80. -/
theorem Ran.frameOut_cases {s t : State} {i : Instr} (hr : Ran s i t) (hi : i.isDecoderOp = true) :
    ((∀ b, i ≠ .dCkOk b) ∧ t.frameOut = none) ∨
    ∃ buf, i = .dCkOk s.cksum ∧ s.buf? = some buf ∧ buf.length = s.lengthExpected.toNat ∧
      t.frameOut = some (closing s buf) := by
  cases hr with
  | ckOk b buf _ _ hb hbuf hlen => exact .inr ⟨buf, by rw [hb], hbuf, hlen, State.dispatchFrame_frameOut _ _⟩
  | checksum | serialize | x121 | x122 | xUnknown => cases hi
  | _ => exact .inl ⟨nofun, rfl⟩

/-- A command word selects D.CK.OK exactly when it feeds the awaited checksum byte (R51, R52). -/
theorem decodePresented_eq_dCkOk {r : KeyRegs} {c : BitVec 10} {b : Byte} :
    decodePresented r (.command c) = .ok (.dCkOk b) ↔
      r.state = .awaitChecksum ∧ decodeCommand c = .feed b ∧ b = r.cksum := by
  constructor
  · intro h
    cases hc : decodeCommand c with
    | reset | idle => simp [decodePresented, hc] at h
    | feed b' =>
      have hdec : decodeKey r (stepKeyOf r.state b') = .ok (.dCkOk b) := by simpa only [decodePresented, hc] using h
      obtain ⟨henc, -, hcond⟩ := encode_of_decodeKey hdec
      obtain ⟨hst, hb⟩ := stepKeyOf_inj (OpWord.stepKey.inj henc)
      exact ⟨hst.symm, by rw [hb], beq_iff_eq.mp hcond⟩
  · rintro ⟨hst, hfeed, hb⟩
    simp [decodePresented, hfeed, hst, decodeKey_stepKeyOf, KeyRegs.checksumMatches, hb]

/-- Settles O39: of the operations a command word selects D.CK.OK alone has a frame event, and it is selected exactly when
the awaited checksum byte is fed. -/
theorem frameEventExactlyOnGoodChecksum : Obligations.FrameEventExactlyOnGoodChecksum := by
  intro s t c rest hin hstep
  obtain ⟨i, hdec, hexec⟩ := step_next hstep
  rw [State.nextPresented_of_input_cons hin] at hdec
  have hi : i.isDecoderOp = true := by
    obtain ⟨j, hj, hop⟩ | ⟨k, -, hk⟩ := decodePresented_command s.keyRegs c
    · cases hj.symm.trans hdec
      exact hop
    · cases hk.symm.trans hdec
  obtain ⟨hne, hnone⟩ | ⟨buf, rfl, hbuf, hlen, hsome⟩ := (exec_ran hexec).frameOut_cases hi
  · simp only [hnone]
    refine ⟨⟨nofun, fun ⟨hs, hfeed⟩ => ?_⟩, nofun⟩
    have hck := (decodePresented_eq_dCkOk (r := s.keyRegs)).mpr ⟨hs, hfeed, rfl⟩
    exact absurd (Except.ok.inj (hdec.symm.trans hck)) (hne _)
  · obtain ⟨hs, hfeed, -⟩ := decodePresented_eq_dCkOk.mp hdec
    refine ⟨⟨fun _ => ⟨hs, hfeed⟩, fun _ => ⟨_, hsome⟩⟩, fun f hf => ?_⟩
    cases hsome.symm.trans hf
    exact ⟨rfl, rfl, hbuf, hlen⟩

end Sys2Proof.Machine

/-! SUPPORT. Whole frames (R79, R81 to R83, R138): a run byte by byte, each byte by the statement about its transition; and
what a flipped bit does to a frame's checksum (R88). -/

namespace Sys2Proof.Machine

/-! ### Runs -/

theorem runSteps_succ_of_step {s u : State} (h : step s = .next u) (n : Nat) : runSteps (n + 1) s = runSteps n u := by
  rw [runSteps, h]

theorem runSteps_succ_last {n : Nat} {s t u : State} (hrun : runSteps n s = .next u) (hstep : step u = .next t) :
    runSteps (n + 1) s = .next t := by
  rw [runSteps_add 1 hrun, runSteps_succ_of_step hstep, runSteps]

theorem step_keeps_wf {s t : State} (hw : s.wf = true) (h : step s = .next t) : t.wf = true := by
  obtain ⟨i, -, hexec⟩ := step_next h
  exact exec_keeps_wf (s := s.consume) hw hexec

theorem runSteps_keeps_wf {n : Nat} {s t : State} (hw : s.wf = true) (h : runSteps n s = .next t) : t.wf = true := by
  induction n generalizing s with
  | zero => cases h; exact hw
  | succ n ih =>
    obtain ⟨u, hstep, hrun⟩ := runSteps_succ_next h
    exact ih (step_keeps_wf hw hstep) hrun

/-! ### Bytes that open no frame -/

/-- Settles O53: by induction on the noise; each byte is a D.SYNC1.MISS, which leaves record and events (O2). -/
theorem noiseWithoutSyncByteIsDiscarded : Obligations.NoiseWithoutSyncByteIsDiscarded := by
  intro s noise rest hw hs hnoise hin
  induction noise generalizing s with
  | nil => exact ⟨s, rfl, ⟨rfl, rfl, rfl, rfl, rfl, rfl, rfl⟩, rfl, hin⟩
  | cons b noise ih =>
    have hb : b ≠ 0x24#8 := fun h => hnoise (h ▸ List.mem_cons_self)
    obtain ⟨-, hmiss⟩ := sync1MissDiscardsTheByte s b (feedAll noise ++ rest) hw hs hb
    have hstep := hmiss hin
    obtain ⟨t, hrun, hsame, hev, hrest⟩ :=
      ih _ (step_keeps_wf hw hstep) hs (fun h => hnoise (List.mem_cons_of_mem _ h)) rfl
    exact ⟨t, (runSteps_succ_of_step hstep _).trans hrun, hsame, hev, hrest⟩

/-- Settles O55: 0x24 opens, the second 0x24 restarts without being looked at again, and so 0x4D is a miss (O1, O4, O2). -/
theorem doubledSyncByteLosesTheFrame : Obligations.DoubledSyncByteLosesTheFrame := by
  intro s rest hw hs hin
  have hopen := (sync1HitAdvancesToSync2 s _ hw hs).2 hin
  have hwopen := step_keeps_wf hw hopen
  have hrestart := (sync2MissRestarts _ 0x24#8 _ hwopen rfl (by decide)).2 rfl
  have hwrestart := step_keeps_wf hwopen hrestart
  have hmiss := (sync1MissDiscardsTheByte _ 0x4D#8 rest hwrestart rfl (by decide)).2 rfl
  rw [runSteps_succ_of_step hopen, runSteps_succ_of_step hrestart, runSteps_succ_of_step hmiss, runSteps, hs]

/-! ### The bytes of a frame up to its checksum -/

/-- Sync pair, direction and length byte (O1, O3, O5, O6). -/
theorem runSteps_header {s : State} {d len : Byte} {rest : List Presented} (hw : s.wf = true) (hs : s.state = .awaitSync1)
    (hin : s.input = feedAll [0x24#8, 0x4D#8, d, len] ++ rest) :
    runSteps 4 s = .next { s with input := rest, state := .awaitId, lengthExpected := len, cksum := len,
                                  lengthReceived := 0#8, frameOut := none, dispatchOut := none, diag := 0#3 } := by
  have hsync1 := (sync1HitAdvancesToSync2 s _ hw hs).2 hin
  have hw1 := step_keeps_wf hw hsync1
  have hsync2 := (sync2HitAdvancesToDirection _ _ hw1 rfl).2 rfl
  have hw2 := step_keeps_wf hw1 hsync2
  have hdir := (directionByteIsConsumedOnly _ d _ hw2 rfl).2 rfl
  have hw3 := step_keeps_wf hw2 hdir
  have hlen := (lengthByteStartsTheChecksum _ len rest hw3 rfl).2 rfl
  rw [runSteps_succ_of_step hsync1, runSteps_succ_of_step hsync2, runSteps_succ_of_step hdir, runSteps_succ_of_step hlen,
    runSteps]

/-- A well-formed state past the identifier byte of a frame with length byte `len` and identifier `id`: the payload bytes
`taken` are in the buffer and the bytes `left` are to come, if any before the checksum byte. -/
structure State.InBody (s : State) (len id : Byte) (taken left : List Byte) : Prop where
  wf : s.wf = true
  state : s.state = if left = [] then .awaitChecksum else .awaitPayload
  lengthExpected : s.lengthExpected = len
  msgId : s.msgId = id
  buf : s.buf? = some taken
  count : taken.length + left.length = len.toNat

section Body
variable {s : State} {len id : Byte} {taken left : List Byte} {rest : List Presented}

/-- The identifier byte, with or without a payload to come (O7, O8). -/
theorem step_feed_id (hw : s.wf = true) (hs : s.state = .awaitId) (hlen : left.length = s.lengthExpected.toNat)
    (hin : s.input = feedCommand id :: rest) :
    ∃ t, step s = .next t ∧ t.InBody s.lengthExpected id [] left ∧ t.input = rest ∧ t.events = s.events := by
  by_cases hz : s.lengthExpected = 0#8
  · obtain ⟨-, hbuf, -, hstep⟩ := identifierByteWithoutPayload s id rest hw hs hz
    have hleft : left = [] := List.length_eq_zero_iff.mp (by rw [hlen, hz]; rfl)
    exact ⟨_, hstep hin, ⟨step_keeps_wf hw (hstep hin), by rw [if_pos hleft], rfl, rfl, hbuf, by simpa using hlen⟩, rfl, rfl⟩
  · obtain ⟨-, hbuf, -, hstep⟩ := identifierByteWithPayload s id rest hw hs hz
    have hleft : left ≠ [] := fun h => hz (BitVec.eq_of_toNat_eq (by rw [← hlen, h]; rfl))
    exact ⟨_, hstep hin, ⟨step_keeps_wf hw (hstep hin), by rw [if_neg hleft], rfl, rfl, hbuf, by simpa using hlen⟩, rfl, rfl⟩

/-- One payload byte, the last one or not (O9, O10). -/
theorem step_feed_payload {b : Byte} (h : s.InBody len id taken (b :: left)) (hin : s.input = feedCommand b :: rest) :
    ∃ t, step s = .next t ∧ t.InBody len id (taken ++ [b]) left ∧ t.input = rest ∧ t.events = s.events := by
  obtain ⟨hw, hs, hle, hid, hbuf, hcount⟩ := h
  rw [if_neg (List.cons_ne_nil b left)] at hs
  obtain ⟨-, -, -, -, -, -, hcur, -⟩ := State.wf_awaitPayload hw hs
  have hrec : s.lengthReceived.toNat = taken.length := by rw [State.buf_length hbuf, hcur]
  rw [List.length_cons] at hcount
  have hcount' : (taken ++ [b]).length + left.length = len.toNat := by
    rw [List.length_append, List.length_singleton]
    omega
  by_cases hleft : left = []
  · have hlast : s.lengthReceived.toNat + 1 = s.lengthExpected.toNat := by
      rw [hrec, hle, ← hcount, hleft, List.length_nil]
    obtain ⟨-, hbuf', -, -, -, hstep⟩ := lastPayloadByteAwaitsTheChecksum s b taken rest hw hs hlast hbuf
    exact ⟨_, hstep hin, ⟨step_keeps_wf hw (hstep hin), by rw [if_pos hleft], hle, hid, hbuf', hcount'⟩, rfl, rfl⟩
  · have hmore : s.lengthReceived.toNat + 1 ≠ s.lengthExpected.toNat := by
      have := List.length_pos_iff.mpr hleft
      rw [hrec, hle, ← hcount]
      omega
    obtain ⟨-, hbuf', -, -, hstep⟩ := payloadByteIsAppended s b taken rest hw hs hmore hbuf
    exact ⟨_, hstep hin, ⟨step_keeps_wf hw (hstep hin), by rw [if_neg hleft]; exact hs, hle, hid, hbuf', hcount'⟩, rfl, rfl⟩

/-- All payload bytes, by induction on those left. -/
theorem runSteps_payload (h : s.InBody len id taken left) (hin : s.input = feedAll left ++ rest) :
    ∃ t, runSteps left.length s = .next t ∧ t.InBody len id (taken ++ left) [] ∧ t.input = rest ∧ t.events = s.events := by
  induction left generalizing s taken with
  | nil => exact ⟨s, rfl, by rwa [List.append_nil], hin, rfl⟩
  | cons b left ih =>
    obtain ⟨u, hstep, hu, hinu, hevu⟩ := step_feed_payload h hin
    obtain ⟨t, hrun, ht, hint, hevt⟩ := ih hu hinu
    refine ⟨t, (runSteps_succ_of_step hstep _).trans hrun, ?_, hint, hevt.trans hevu⟩
    rwa [List.append_assoc] at ht

/-- Where the payload is complete the checksum byte awaited is the frame's (R30, R87). -/
theorem State.InBody.cksum (h : s.InBody len id taken []) : s.cksum = frameChecksum len id taken := by
  obtain ⟨hw, hs, hle, hid, hbuf, -⟩ := h
  obtain ⟨buf, hbuf', -, -, hck⟩ := State.wf_awaitChecksum hw hs
  cases hbuf.symm.trans hbuf'
  rw [hck, hle, hid, frameChecksum_eq]

end Body

/-- A frame's bytes up to the checksum byte, from every well-formed state in `AwaitSync1`: no event, and the Decoder awaits
the frame's checksum. -/
theorem runSteps_untilChecksum {s : State} {d id c : Byte} {p : List Byte} {rest : List Presented} (hw : s.wf = true)
    (hs : s.state = .awaitSync1) (hp : p.length ≤ 255)
    (hin : s.input = feedAll ([0x24#8, 0x4D#8, d, BitVec.ofNat 8 p.length, id] ++ p ++ [c]) ++ rest) :
    ∃ t, runSteps (5 + p.length) s = .next t ∧ t.InBody (BitVec.ofNat 8 p.length) id p [] ∧
      t.input = feedCommand c :: rest ∧ t.events = s.events := by
  have hlen : p.length = (BitVec.ofNat 8 p.length).toNat := by
    rw [BitVec.toNat_ofNat]
    omega
  have hin' : s.input = feedAll [0x24#8, 0x4D#8, d, BitVec.ofNat 8 p.length] ++
      (feedCommand id :: (feedAll p ++ (feedCommand c :: rest))) := by
    simpa [feedAll] using hin
  have hheader := runSteps_header hw hs hin'
  have hwheader : State.wf _ = true := runSteps_keeps_wf hw hheader
  obtain ⟨u, hstep, hu, hinu, hevu⟩ := step_feed_id (left := p) hwheader rfl hlen rfl
  obtain ⟨t, hrun, ht, hint, hevt⟩ := runSteps_payload hu hinu
  refine ⟨t, ?_, ht, hint, hevt.trans hevu⟩
  rw [show 5 + p.length = 4 + (p.length + 1) by omega, runSteps_add _ hheader, runSteps_succ_of_step hstep, hrun]

/-! ### The checksum byte -/

theorem framesOf_append (l r : List Event) : framesOf (l ++ r) = framesOf l ++ framesOf r := by
  induction l with
  | nil => rfl
  | cons e l ih => cases e <;> simp [framesOf, ih]

/-- The dispatch stage adds no frame event (R98). -/
theorem State.dispatchFrame_framesOf (f : Frame) (s : State) :
    framesOf (s.dispatchFrame f).events = framesOf s.events := by
  obtain ⟨-, h⟩ | ⟨_, _, -, -, -, h⟩ | ⟨_, -, -, -, h⟩ := State.dispatchFrame_cases f s
  · rw [h, State.raise_events]
  · rw [h, State.emitDispatch_events, framesOf_append, framesOf, framesOf, List.append_nil]
  · rw [h, State.recordDispatchFault_events, State.raise_events]

/-- Settles O51: up to the checksum byte by `runSteps_untilChecksum`; that byte is the one awaited, so D.CK.OK delivers the
frame, and the dispatch stage adds no other frame event. -/
theorem wellFormedFrameIsDelivered : Obligations.WellFormedFrameIsDelivered := by
  intro s d id p rest hw hs hp hin
  obtain ⟨u, hrun, hu, hinu, hevu⟩ := runSteps_untilChecksum hw hs hp hin
  have hck := hu.cksum
  obtain ⟨hwu, hsu, hle, hid, hbuf, hcount⟩ := hu
  have hf : closing u p = ⟨id, BitVec.ofNat 8 p.length, p⟩ := by rw [closing, hle, hid]
  have hr := Ran.ckOk _ p hwu hsu hck.symm hbuf (by rw [hle]; exact hcount)
  rw [hf] at hr
  have hstep := (hr.exec_and_feed hsu rfl).2 hinu
  rw [show 6 + p.length = 5 + p.length + 1 by omega]
  refine ⟨_, runSteps_succ_last hrun hstep, step_keeps_wf hwu hstep, State.dispatchFrame_state _ _, rfl,
    State.dispatchFrame_frameOut _ _, ?_⟩
  rw [State.dispatchFrame_framesOf, closed, framesOf_append, hevu]
  rfl

/-- Settles O54: up to the checksum byte by `runSteps_untilChecksum`; that byte is not the one awaited, so D.CK.BAD drops
the frame (O12). -/
theorem damagedFrameIsDropped : Obligations.DamagedFrameIsDropped := by
  intro s d id c p rest hw hs hp hc hin
  obtain ⟨u, hrun, hu, hinu, hevu⟩ := runSteps_untilChecksum hw hs hp hin
  have hbad : c ≠ u.cksum := by rwa [hu.cksum]
  have hstep := (badChecksumDropsTheFrame u c rest hu.wf hu.state hbad).2 hinu
  rw [show 6 + p.length = 5 + p.length + 1 by omega]
  exact ⟨_, runSteps_succ_last hrun hstep, rfl, rfl, hevu, rfl, rfl, rfl⟩

/-! ### Flipped bits -/

/-- Flipping bits of one byte flips the same bits of the fold (R88 b). -/
theorem xorAll_set_flip {p : List Byte} {k : Nat} {b : Byte} (flip : Byte) (h : p[k]? = some b) :
    xorAll (p.set k (b ^^^ flip)) = xorAll p ^^^ flip := by
  induction p generalizing k with
  | nil => cases h
  | cons a p ih =>
    cases k with
    | zero =>
      cases h
      rw [List.set_cons_zero, xorAll_cons, xorAll_cons]
      ac_rfl
    | succ k =>
      rw [List.set_cons_succ, xorAll_cons, xorAll_cons, ih h]
      ac_rfl

/-- Settles O49: the frame's checksum is a fold of exclusive ors, through which a flip of one byte passes. -/
theorem bitFlipsShowInTheChecksum : Obligations.BitFlipsShowInTheChecksum := by
  intro len id flip p
  simp only [frameChecksum_eq]
  refine ⟨by ac_rfl, fun k b hk => ?_, fun hne heq => hne ?_⟩
  · rw [xorAll_set_flip flip hk]
    ac_rfl
  · exact (BitVec.xor_right_inj _).mp (heq.trans BitVec.xor_zero.symm)

end Sys2Proof.Machine

/-! SUPPORT. The checksum of 42_checksum.md (R85, R86, R88): the parity of each bit, and the order of the bytes. -/

namespace Sys2Proof.Machine

/-- Bit `k` of the fold is the parity of bit `k` over the bytes (R85): each byte with the bit set turns the parity over. -/
theorem xorAll_getLsbD (bytes : List Byte) (k : Nat) :
    (xorAll bytes).getLsbD k = decide (bytes.countP (fun b => b.getLsbD k) % 2 = 1) := by
  induction bytes with
  | nil => simp
  | cons b l ih =>
    rw [xorAll_cons, BitVec.getLsbD_xor, ih, List.countP_cons, Bool.eq_iff_iff]
    cases b.getLsbD k
    · simp
    · simp only [Bool.true_xor, Bool.not_eq_true', decide_eq_false_iff_not, decide_eq_true_eq, if_true]
      omega

/-- Settles O15: the fold's append and cons laws, and the parity of each bit by induction on the bytes. -/
theorem checksumIsTheXorFold : Obligations.ChecksumIsTheXorFold := by
  refine ⟨fun bytes _ => (Ran.checksum bytes).exec_eq, xorAll_nil, fun bytes b => ?_, xorAll_getLsbD, frameChecksum_eq⟩
  simp only [checksumOf, xorAll_append, xorAll_cons, xorAll_nil, BitVec.xor_zero]

/-- Settles O50: two neighbouring bytes may change places because exclusive or commutes (R88 a), and such swaps make up
every permutation. -/
theorem checksumIgnoresOrder : Obligations.ChecksumIgnoresOrder := by
  intro l r h
  unfold checksumOf
  induction h with
  | nil => rfl
  | cons b _ ih => rw [xorAll_cons, xorAll_cons, ih]
  | swap b c l =>
    simp only [xorAll_cons]
    ac_rfl
  | trans _ _ ih₁ ih₂ => exact ih₁.trans ih₂

end Sys2Proof.Machine

/-! SUPPORT. The Encoder of 43_encoder.md (R90 to R92, R95): what SERIALIZE answers, and what a Decoder makes of it. -/

namespace Sys2Proof.Machine

/-- The length byte of a payload of at most 255 bytes holds its number of bytes (R90). -/
theorem toNat_lengthByte {p : List Byte} (hp : p.length ≤ 255) : (BitVec.ofNat 8 p.length).toNat = p.length := by
  rw [BitVec.toNat_ofNat]
  omega

/-- The zero-payload request on the wire (R91): the checksum is `0 ^ id`, the identifier itself. -/
theorem wireFrame_dirReq_nil (id : Byte) :
    wireFrame Config.dirReq id [] = [0x24#8, 0x4D#8, 0x3E#8, 0x00#8, id, id] := by
  simp [wireFrame_eq, Config.dirReq, checksumOf]

/-- Settles O16: SERIALIZE leaves the wire frame of R54 with the request direction, and the step of a call is its rule. -/
theorem serializeBuildsTheFrame : Obligations.SerializeBuildsTheFrame := by
  intro s id p rest hp
  refine ⟨exec_serialize_next.mpr ⟨hp, rfl⟩, toNat_lengthByte hp, wireFrame_length Config.dirReq id p, fun hin => ?_⟩
  have hdec : decodePresented s.keyRegs s.nextPresented = .ok (.serialize id p) := by
    rw [State.nextPresented, hin]
    rfl
  have hstep := step_of_ran hdec (.serialize id p hp)
  rwa [State.consume_of_input hin] at hstep

/-- Settles O17: the empty payload is in range, and its frame is `wireFrame_dirReq_nil`. -/
theorem zeroPayloadRequest : Obligations.ZeroPayloadRequest := by
  intro s id
  rw [← wireFrame_dirReq_nil]
  exact exec_serialize_next.mpr ⟨Nat.zero_le _, rfl⟩

/-- Settles O18: the length check comes before anything is written, and looks at nothing of the state (R92). -/
theorem overlongSerializeIsRefused : Obligations.OverlongSerializeIsRefused :=
  fun _ _ _ hp => if_neg (Nat.not_le.mpr hp)

/-- Settles O52: SERIALIZE changes neither the Decoder's record nor the events, and what it leaves on the output stream is a
well-formed frame, which a Decoder in `AwaitSync1` delivers (O51). -/
theorem encoderAndDecoderAgree : Obligations.EncoderAndDecoderAgree := by
  intro s u id p rest hw hs hser
  obtain ⟨hp, rfl⟩ := exec_serialize_next.mp hser
  obtain ⟨t, hrun, -, hstate, hinput, hframe, hevents⟩ :=
    wellFormedFrameIsDelivered { s.withSerialOut (wireFrame Config.dirReq id p) with
      input := feedAll (wireFrame Config.dirReq id p) ++ rest } Config.dirReq id p rest hw hs hp rfl
  rw [← wireFrame_length Config.dirReq id p] at hrun
  exact ⟨t, hrun, hstate, hinput, hframe, hevents⟩

end Sys2Proof.Machine

/-! SUPPORT. The dispatch stage of 44_catalog_dispatch.md (R96 to R104): field cutting and its inverse (R99), the
operations X.121, X.122 and X.UNKNOWN, and the dispatch event of a step (R98). -/

namespace Sys2Proof.Machine

/-! ### Fields -/

/-- Settles O47: both lengths are earlier lemmas about field cutting, `cutFields_eq_fieldsOf` and `cutFields_eq_none`. -/
theorem fieldsAreLittleEndian : Obligations.FieldsAreLittleEndian :=
  fun _ _ => ⟨cutFields_eq_fieldsOf, cutFields_eq_none⟩

/-- The sum of `LE32` (00_scope.md section 6) does not wrap. -/
theorem toNat_le32 (b0 b1 b2 b3 : Byte) :
    (le32 b0 b1 b2 b3).toNat = b0.toNat + 256 * b1.toNat + 65536 * b2.toNat + 16777216 * b3.toNat := by
  rw [le32, BitVec.toNat_ofNat]
  omega

/-- `LE32` of a field's four bytes is the field (R99): they are its digits to base 256. -/
theorem le32_fieldBytes (f : Word32) :
    le32 (f.extractLsb' 0 8) (f.extractLsb' 8 8) (f.extractLsb' 16 8) (f.extractLsb' 24 8) = f := by
  apply BitVec.eq_of_toNat_eq
  rw [toNat_le32]
  simp only [BitVec.extractLsb'_toNat, Nat.shiftRight_eq_div_pow]
  omega

/-- The four bytes of `LE32` are the bytes it was made of (R99). -/
theorem fieldBytes_le32 (b0 b1 b2 b3 : Byte) : fieldBytes (le32 b0 b1 b2 b3) = [b0, b1, b2, b3] := by
  have digit (k : Nat) (b : Byte) (h : (le32 b0 b1 b2 b3).toNat / 2 ^ k % 256 = b.toNat) :
      (le32 b0 b1 b2 b3).extractLsb' k 8 = b :=
    BitVec.eq_of_toNat_eq (by rw [BitVec.extractLsb'_toNat, Nat.shiftRight_eq_div_pow]; exact h)
  have hsum := toNat_le32 b0 b1 b2 b3
  rw [fieldBytes, digit 0 b0 (by omega), digit 8 b1 (by omega), digit 16 b2 (by omega), digit 24 b3 (by omega)]

theorem cutFields_layFields (fs : List Word32) : cutFields fs.length (layFields fs) = some fs := by
  induction fs with
  | nil => rfl
  | cons f fs ih =>
    calc cutFields (fs.length + 1) (fieldBytes f ++ layFields fs)
        = (cutFields fs.length (layFields fs)).map (le32 _ _ _ _ :: ·) := rfl
      _ = some (f :: fs) := by rw [ih, le32_fieldBytes]; rfl

theorem layFields_of_cutFields {n : Nat} {p : List Byte} {fs : List Word32} (h : cutFields n p = some fs) :
    layFields fs = p := by
  induction n generalizing p fs with
  | zero =>
    match p, h with
    | [], h => cases h; rfl
  | succ n ih =>
    match p, h with
    | b0 :: b1 :: b2 :: b3 :: rest, h =>
      obtain ⟨gs, hcut, rfl⟩ := Option.map_eq_some_iff.mp h
      rw [layFields, fieldBytes_le32, ih hcut]
      rfl

/-- Settles O48: each direction by induction on the fields, where one field and its four bytes determine each other. -/
theorem fieldsRoundTrip : Obligations.FieldsRoundTrip :=
  ⟨cutFields_layFields, fun _ _ _ => layFields_of_cutFields⟩

/-! ### The operations of the stage -/

section Deliver
variable {n : Nat} {f : Frame}

/-- A payload of `4 * n` bytes is delivered as the fields of R99's formula; a `diag` that stands is gone (R116). -/
theorem State.deliverFields_clearDiag_of_length (s : State) (h : f.payload.length = 4 * n) :
    s.clearDiag.deliverFields n f =
      { s with dispatchOut := some ⟨f.id, fieldsOf f.payload n⟩, diag := 0#3,
               events := s.events ++ [.dispatch ⟨f.id, fieldsOf f.payload n⟩] } := by
  simp only [State.deliverFields, cutFields_eq_fieldsOf h]
  rfl

/-- A payload of another length is the layout mismatch of R101. -/
theorem State.deliverFields_clearDiag_of_length_ne (s : State) (h : f.payload.length ≠ 4 * n) :
    s.clearDiag.deliverFields n f = { s with diag := 4#3, dispatchFault := true } := by
  simp only [State.deliverFields, cutFields_eq_none h]
  rfl

end Deliver

/-- Settles O19: the rule of X.121 delivers six fields, or the mismatch where the payload has another length. -/
theorem dispatch121CutsSixFields : Obligations.Dispatch121CutsSixFields := by
  intro s len p hf hd hcat
  have hx := (Ran.x121 ⟨0x79#8, len, p⟩ hf hd rfl hcat).exec_eq
  exact ⟨fun hlen => hx.trans (congrArg _ (State.deliverFields_clearDiag_of_length s hlen)),
    fun hlen => hx.trans (congrArg _ (State.deliverFields_clearDiag_of_length_ne s hlen))⟩

/-- Settles O20: the rule of X.122 delivers three fields, or the mismatch where the payload has another length. -/
theorem dispatch122CutsThreeFields : Obligations.Dispatch122CutsThreeFields := by
  intro s len p hf hd hcat
  have hx := (Ran.x122 ⟨0x7A#8, len, p⟩ hf hd rfl hcat).exec_eq
  exact ⟨fun hlen => hx.trans (congrArg _ (State.deliverFields_clearDiag_of_length s hlen)),
    fun hlen => hx.trans (congrArg _ (State.deliverFields_clearDiag_of_length_ne s hlen))⟩

/-- Settles O21: the rule of X.UNKNOWN, which raises and looks at no payload. -/
theorem unknownIdentifierIsDropped : Obligations.UnknownIdentifierIsDropped :=
  fun _ id len p hf hd hcat => (Ran.xUnknown ⟨id, len, p⟩ hf hd hcat).exec_eq

/-! ### The dispatch event of a step -/

/-- The dispatch stage has a dispatch event only for a known identifier, whose payload has the length the catalog gives it
(R98, R99); otherwise the one that stood there stays. -/
theorem State.dispatchFrame_dispatchOut (f : Frame) (s : State) :
    (s.dispatchFrame f).dispatchOut = s.dispatchOut ∨
    ∃ n, fieldCountOf s.catalog f.id = some n ∧ f.payload.length = 4 * n ∧
      (s.dispatchFrame f).dispatchOut = some ⟨f.id, fieldsOf f.payload n⟩ := by
  obtain ⟨-, h⟩ | ⟨n, fs, hcat, hcut, hlen, h⟩ | ⟨_, -, -, -, h⟩ := State.dispatchFrame_cases f s
  · exact .inl (by rw [h]; rfl)
  · cases (cutFields_eq_fieldsOf hlen).symm.trans hcut
    exact .inr ⟨n, hcat, hlen, by rw [h]; rfl⟩
  · exact .inl (by rw [h]; rfl)

/-- A Decoder operation has a dispatch event only from D.CK.OK's own dispatch stage, on the frame event it emits (R96). -/
theorem Ran.dispatchOut_cases {s t : State} {i : Instr} (hr : Ran s i t) (hi : i.isDecoderOp = true) :
    t.dispatchOut = none ∨
    ∃ f n, t.frameOut = some f ∧ fieldCountOf s.catalog f.id = some n ∧ f.payload.length = 4 * n ∧
      t.dispatchOut = some ⟨f.id, fieldsOf f.payload n⟩ := by
  cases hr with
  | ckOk b buf =>
    obtain hnone | ⟨n, hcat, hlen, hsome⟩ := State.dispatchFrame_dispatchOut (closing s buf) (closed s (closing s buf))
    · exact .inl hnone
    · exact .inr ⟨_, n, State.dispatchFrame_frameOut _ _, hcat, hlen, hsome⟩
  | checksum | serialize | x121 | x122 | xUnknown => cases hi
  | _ => exact .inl rfl

/-- A step on a command word runs a Decoder operation (R51, R52). -/
theorem step_command_ran {s t : State} {c : BitVec 10} {rest : List Presented} (hin : s.input = .command c :: rest)
    (h : step s = .next t) : ∃ i, i.isDecoderOp = true ∧ Ran s.consume i t := by
  obtain ⟨i, hdec, hexec⟩ := step_next h
  rw [State.nextPresented_of_input_cons hin] at hdec
  obtain ⟨j, hj, hop⟩ | ⟨k, -, hk⟩ := decodePresented_command s.keyRegs c
  · cases hj.symm.trans hdec
    exact ⟨i, hop, exec_ran hexec⟩
  · cases hk.symm.trans hdec

/-- Settles O40: a command word runs a Decoder operation, and of those D.CK.OK alone has a dispatch event, that of the
frame event of its own step. -/
theorem dispatchOnlyWithItsFrame : Obligations.DispatchOnlyWithItsFrame := by
  intro s t c rest d hin hstep hd
  obtain ⟨i, hi, hr⟩ := step_command_ran hin hstep
  obtain hnone | ⟨f, n, hf, hcat, hlen, hsome⟩ := hr.dispatchOut_cases hi
  · cases hnone.symm.trans hd
  · cases hsome.symm.trans hd
    exact ⟨f, n, hf, rfl, hcat, hlen, rfl⟩

end Sys2Proof.Machine

/-! SUPPORT. The control operations of 45_system.md: what is presented (R107), and RESET and IDLE by their command words
(R105, R106). -/

namespace Sys2Proof.Machine

/-- Settles O60: RESET and IDLE are the two control readings of a command word (R51); what a fed byte selects is encoded as
its step key (`encode_of_decodeKey`), as only the twelve transitions are. -/
theorem onlyTheListedOperationsArePresented : Obligations.OnlyTheListedOperationsArePresented := by
  intro r p i hdec
  cases p with
  | callSerialize id payload => exact .inl ⟨id, payload, rfl, (Except.ok.inj hdec).symm⟩
  | command c =>
    refine .inr ⟨c, rfl, ?_⟩
    cases hc : decodeCommand c with
    | reset =>
      simp only [decodePresented, hc, Except.ok.injEq] at hdec
      exact .inl ⟨rfl, hdec.symm⟩
    | idle =>
      simp only [decodePresented, hc, Except.ok.injEq] at hdec
      exact .inr (.inl ⟨rfl, hdec.symm⟩)
    | feed b =>
      simp only [decodePresented, hc] at hdec
      obtain ⟨henc, -, -⟩ := encode_of_decodeKey hdec
      have hreset : i ≠ .reset := by rintro rfl; cases henc
      have hidle : i ≠ .idle := by rintro rfl; cases henc
      exact .inr (.inr ⟨b, rfl, isDecoderOp_of_encode henc, hreset, hidle, henc⟩)

/-- A Decoder operation that runs by its rule is also what the step does that presents a command word selecting it (R51). -/
theorem Ran.step_command {s t : State} {i : Instr} {c : BitVec 10} {rest : List Presented} (hr : Ran s i t)
    (hi : i.isDecoderOp = true) (hdec : decodePresented s.keyRegs (.command c) = .ok i)
    (hin : s.input = .command c :: rest) : step s = .next { t with input := rest } := by
  rw [← State.nextPresented_of_input_cons hin] at hdec
  rw [step_of_decode hdec, State.consume_of_input_cons hin]
  exact (hr.withInput hi rest).exec_eq

/-- Settles O13: the rule of RESET and its step; with `rst` set neither `in_valid` nor the byte is looked at (R51). -/
theorem resetReturnsToTheInitialState : Obligations.ResetReturnsToTheInitialState := by
  intro s inValid b rest hw t
  have hr : Ran s .reset t := .reset hw
  exact ⟨hr.exec_eq, rfl, hr.step_command rfl (by simp [decodePresented])⟩

/-- Settles O14: the rule of IDLE and its step; with `rst` and `in_valid` clear the byte is not looked at (R51). -/
theorem idleKeepsEveryComponent : Obligations.IdleKeepsEveryComponent := by
  intro s b rest hw
  have hr := Ran.idle hw
  exact ⟨hr.exec_eq, hr.step_command rfl (by simp [decodePresented])⟩

end Sys2Proof.Machine

/-! SUPPORT. The error classes (R109 to R117, R122): which one a FEED step takes, and the whole state it leaves; then the
record of a dispatch fault. -/

namespace Sys2Proof.Machine

/-! ### The record of a dispatch fault -/

theorem State.deliverFields_dispatchFault (n : Nat) (f : Frame) (s : State) :
    (s.deliverFields n f).dispatchFault = s.dispatchFault ∨
    (s.deliverFields n f).dispatchFault = true ∧ (s.deliverFields n f).diag = 4#3 := by
  obtain ⟨_, -, -, h⟩ | ⟨-, -, h⟩ := State.deliverFields_cases n f s
  · exact .inl (by rw [h]; rfl)
  · exact .inr (by rw [h]; exact ⟨rfl, rfl⟩)

theorem State.dispatchFrame_dispatchFault (f : Frame) (s : State) :
    (s.dispatchFrame f).dispatchFault = s.dispatchFault ∨
    (s.dispatchFrame f).dispatchFault = true ∧ (s.dispatchFrame f).diag = 4#3 := by
  unfold State.dispatchFrame
  split
  · exact State.deliverFields_dispatchFault _ f s
  · exact .inl rfl

/-- An operation leaves the record alone, RESET included, or sets it on a layout mismatch (R101, R122). -/
theorem Ran.dispatchFault_cases {s t : State} {i : Instr} (hr : Ran s i t) :
    t.dispatchFault = s.dispatchFault ∨ t.dispatchFault = true ∧ t.diag = 4#3 := by
  cases hr with
  | ckOk b buf => exact State.dispatchFrame_dispatchFault _ (closed s (closing s buf))
  | x121 | x122 => exact State.deliverFields_dispatchFault _ _ s.clearDiag
  | _ => exact .inl rfl

/-- Settles O38: the operation a step runs leaves the record or sets it with `diag` 4 (`Ran.dispatchFault_cases`). -/
theorem dispatchFaultStaysRecorded : Obligations.DispatchFaultStaysRecorded := by
  intro s t hstep
  obtain ⟨i, -, hexec⟩ := step_next hstep
  obtain hsame | ⟨hset, hdiag⟩ := (exec_ran hexec).dispatchFault_cases
  · exact ⟨hsame.trans, fun hclear hset => absurd (hsame.symm.trans hset) (by simp [hclear])⟩
  · exact ⟨fun _ => hset, fun _ _ => hdiag⟩

/-! ### The error class of a FEED step -/

theorem ErrorClass.code_ne_zero (e : ErrorClass) : e.code ≠ 0#3 := by cases e <;> decide

theorem ErrorClass.toNat_code_le (e : ErrorClass) : e.code.toNat ≤ 4 := by cases e <;> decide

/-- The codes of R109 are distinct. -/
theorem ErrorClass.code_inj {e e' : ErrorClass} : e.code = e'.code ↔ e = e' := by
  cases e <;> cases e' <;> decide

/-- The two classes of the dispatch level, which come with the frame event of their step (R112, R113, R119). -/
def ErrorClass.atDispatch : ErrorClass → Bool
  | .syncLoss | .cksumMismatch => false
  | .unknownId | .layoutMismatch => true

/-- The class of the dispatch level that a closing frame takes, if any: its identifier is unknown, or its length is not
that of the fields the catalog gives it (R112, R113). -/
def State.stageError (s : State) : Option ErrorClass :=
  match fieldCountOf s.catalog s.msgId with
  | none => some .unknownId
  | some n => if s.lengthExpected.toNat = 4 * n then none else some .layoutMismatch

/-- The class that feeding `b` takes, if any: a function of the position, the byte and the registers, so that at most one
applies (R110 to R113, R117). -/
def State.feedError (s : State) (b : Byte) : Option ErrorClass :=
  match s.state with
  | .awaitSync1 => if b = 0x24#8 then none else some .syncLoss
  | .awaitSync2 => if b = 0x4D#8 then none else some .syncLoss
  | .awaitChecksum => if b = s.cksum then s.stageError else some .cksumMismatch
  | .awaitDirection | .awaitLength | .awaitId | .awaitPayload | .unused7 => none

/-- All that taking class `e` leaves of `s`, with the frame event `f` if there is one (R115, R119). -/
def State.afterError (s : State) (e : ErrorClass) (f : Option Frame) : State :=
  { s with state := .awaitSync1, frameOut := f, dispatchOut := none, diag := e.code,
           events := s.events ++ f.toList.map .frame, dispatchFault := e == .layoutMismatch || s.dispatchFault }

section Classes
variable {s : State} {b : Byte}

theorem State.atDispatch_of_stageError {e : ErrorClass} (h : s.stageError = some e) : e.atDispatch = true := by
  unfold State.stageError at h
  split at h
  · cases h; rfl
  · split at h
    · cases h
    · cases h; rfl

theorem State.stageError_ne {e : ErrorClass} (h : e.atDispatch = false) : s.stageError ≠ some e :=
  fun he => absurd (State.atDispatch_of_stageError he) (by simp [h])

theorem State.stageError_eq_unknownId : s.stageError = some .unknownId ↔ fieldCountOf s.catalog s.msgId = none := by
  unfold State.stageError
  cases fieldCountOf s.catalog s.msgId <;> simp

theorem State.stageError_eq_layoutMismatch : s.stageError = some .layoutMismatch ↔
    ∃ n, fieldCountOf s.catalog s.msgId = some n ∧ s.lengthExpected.toNat ≠ 4 * n := by
  unfold State.stageError
  cases fieldCountOf s.catalog s.msgId <;> simp

theorem State.stageError_eq_none : s.stageError = none ↔
    ∃ n, fieldCountOf s.catalog s.msgId = some n ∧ s.lengthExpected.toNat = 4 * n := by
  unfold State.stageError
  cases fieldCountOf s.catalog s.msgId <;> simp

theorem State.feedError_eq_syncLoss : s.feedError b = some .syncLoss ↔
    (s.state = .awaitSync1 ∧ b ≠ 0x24#8) ∨ (s.state = .awaitSync2 ∧ b ≠ 0x4D#8) := by
  unfold State.feedError
  cases s.state with
  | awaitChecksum => by_cases hb : b = s.cksum <;> simp [hb, State.stageError_ne (e := .syncLoss) rfl]
  | _ => simp

theorem State.feedError_eq_cksumMismatch :
    s.feedError b = some .cksumMismatch ↔ s.state = .awaitChecksum ∧ b ≠ s.cksum := by
  unfold State.feedError
  cases s.state with
  | awaitChecksum => by_cases hb : b = s.cksum <;> simp [hb, State.stageError_ne (e := .cksumMismatch) rfl]
  | _ => simp

/-- The classes of the dispatch level are taken on the awaited checksum byte alone. -/
theorem State.feedError_eq_atDispatch {e : ErrorClass} (he : e.atDispatch = true) :
    s.feedError b = some e ↔ s.state = .awaitChecksum ∧ b = s.cksum ∧ s.stageError = some e := by
  have hsync : .syncLoss ≠ e := by rintro rfl; cases he
  have hck : .cksumMismatch ≠ e := by rintro rfl; cases he
  unfold State.feedError
  cases s.state with
  | awaitChecksum => by_cases hb : b = s.cksum <;> simp [hb, hck]
  | _ => simp [hsync]

end Classes

section Feed
variable {s t : State} {b : Byte} {i : Instr}

/-- The dispatch stage on the frame that closes takes the class of `stageError`, or raises nothing. -/
theorem State.dispatchFrame_closed {buf : List Byte} (hlen : buf.length = s.lengthExpected.toNat) :
    (s.stageError = none ∧ ((closed s (closing s buf)).dispatchFrame (closing s buf)).diag = 0#3) ∨
    ∃ e, s.stageError = some e ∧
      (closed s (closing s buf)).dispatchFrame (closing s buf) = s.afterError e (some (closing s buf)) := by
  obtain ⟨hcat, h⟩ | ⟨n, fs, hcat, -, h4, h⟩ | ⟨n, hcat, -, h4, h⟩ :=
    State.dispatchFrame_cases (closing s buf) (closed s (closing s buf))
  · exact .inr ⟨.unknownId, State.stageError_eq_unknownId.mpr hcat, h⟩
  · exact .inl ⟨State.stageError_eq_none.mpr ⟨n, hcat, hlen.symm.trans h4⟩, by rw [h]; rfl⟩
  · exact .inr ⟨.layoutMismatch, State.stageError_eq_layoutMismatch.mpr ⟨n, hcat, hlen ▸ h4⟩, h⟩

/-- A transition takes the class of `feedError` for its byte, with a frame event in the two classes of the dispatch level,
or raises nothing. -/
theorem Ran.feedError_cases (hr : Ran s i t) (henc : encode i = .stepKey (stepKeyOf s.state b)) :
    (s.feedError b = none ∧ t.diag = 0#3) ∨
    ∃ e f, s.feedError b = some e ∧ f.isSome = e.atDispatch ∧ t = s.afterError e f := by
  cases hr with
  | reset | idle | checksum | serialize | x121 | x122 | xUnknown => cases henc
  | dir _ _ hs | len _ _ hs | idNz _ _ hs | idZ _ _ hs | payMore _ _ hs | payLast _ _ hs =>
    exact .inl ⟨by simp only [State.feedError, hs], rfl⟩
  | sync1Hit _ hs | sync2Hit _ hs =>
    obtain ⟨-, rfl⟩ := stepKeyOf_inj (OpWord.stepKey.inj henc)
    exact .inl ⟨by simp [State.feedError, hs, Config.sync1, Config.sync2], rfl⟩
  | sync1Miss _ _ hs hb | sync2Miss _ _ hs hb =>
    obtain ⟨-, rfl⟩ := stepKeyOf_inj (OpWord.stepKey.inj henc)
    exact .inr ⟨.syncLoss, none, State.feedError_eq_syncLoss.mpr (by simp [hs, hb]), rfl,
      by simp [State.afterError, ErrorClass.code, hs]⟩
  | ckBad _ _ hs hb =>
    obtain ⟨-, rfl⟩ := stepKeyOf_inj (OpWord.stepKey.inj henc)
    exact .inr ⟨.cksumMismatch, none, State.feedError_eq_cksumMismatch.mpr ⟨hs, hb⟩, rfl,
      by simp [State.afterError, ErrorClass.code]⟩
  | ckOk _ buf _ hs hb _ hlen =>
    obtain ⟨-, rfl⟩ := stepKeyOf_inj (OpWord.stepKey.inj henc)
    rw [show s.feedError _ = s.stageError by simp only [State.feedError, hs, if_pos hb]]
    obtain hok | ⟨e, he, ht⟩ := State.dispatchFrame_closed hlen
    · exact .inl hok
    · exact .inr ⟨e, some (closing s buf), he, (State.atDispatch_of_stageError he).symm, ht⟩

end Feed

section FeedStep
variable {s t : State} {b : Byte} {rest : List Presented} (hin : s.input = feedCommand b :: rest)
  (hstep : step s = .next t)
include hin hstep

theorem step_feedError_cases :
    (s.feedError b = none ∧ t.diag = 0#3) ∨
    ∃ e f, s.feedError b = some e ∧ f.isSome = e.atDispatch ∧
      t = ({ s with input := rest } : State).afterError e f := by
  obtain ⟨i, hdec, hr⟩ := step_feed_ran hin hstep
  obtain ⟨henc, -, -⟩ := encode_of_decodeKey hdec
  exact hr.feedError_cases henc

/-- The code of a FEED step is that of the class it takes, and 0 without one (R109, R117). -/
theorem step_feed_diag_eq_code (e : ErrorClass) : t.diag = e.code ↔ s.feedError b = some e := by
  obtain ⟨hnone, hdiag⟩ | ⟨e', f, he, -, rfl⟩ := step_feedError_cases hin hstep
  · simp [hnone, hdiag, e.code_ne_zero.symm]
  · rw [he, Option.some.injEq]
    exact ErrorClass.code_inj

theorem step_feed_toNat_diag_le : t.diag.toNat ≤ 4 := by
  obtain ⟨-, hdiag⟩ | ⟨e, f, -, -, rfl⟩ := step_feedError_cases hin hstep
  · simp [hdiag]
  · exact e.toNat_code_le

/-- What a FEED step does is the same whatever `diag` stood before it (R116). -/
theorem step_feed_ignores_diag (d : BitVec 3) : step { s with diag := d } = .next t := by
  obtain ⟨i, hdec, hr⟩ := step_feed_ran hin hstep
  obtain ⟨henc, -, -⟩ := encode_of_decodeKey hdec
  have hser : ∀ id p, i ≠ .serialize id p := by rintro _ _ rfl; cases henc
  have hsum : ∀ l, i ≠ .checksum l := by rintro _ rfl; cases henc
  rw [step_feed (s := { s with diag := d }) hin hdec, State.consume_of_input (s := { s with diag := d }) hin]
  exact (exec_ignores_diag hser hsum _ d).trans hr.exec_eq

end FeedStep

/-- Settles O41: the code names the class the step takes (`step_feed_diag_eq_code`), and each class has its one cause. -/
theorem diagNamesTheOneCause : Obligations.DiagNamesTheOneCause := by
  intro s t b rest hin hstep
  have hcode := step_feed_diag_eq_code hin hstep
  refine ⟨(hcode .syncLoss).trans State.feedError_eq_syncLoss, (hcode .cksumMismatch).trans State.feedError_eq_cksumMismatch,
    ?_, ?_, step_feed_toNat_diag_le hin hstep, step_feed_ignores_diag hin hstep⟩
  · rw [← State.stageError_eq_unknownId]
    exact (hcode .unknownId).trans (State.feedError_eq_atDispatch rfl)
  · rw [← State.stageError_eq_layoutMismatch]
    exact (hcode .layoutMismatch).trans (State.feedError_eq_atDispatch rfl)

/-- Settles O42: a nonzero code is that of the class taken, and the state is the one that class leaves
(`State.afterError`). -/
theorem errorStepsChangeOnlyState : Obligations.ErrorStepsChangeOnlyState := by
  intro s t b rest hin hstep hdiag
  obtain ⟨-, h0⟩ | ⟨e, f, -, hf, rfl⟩ := step_feedError_cases hin hstep
  · exact absurd h0 hdiag
  refine ⟨rfl, rfl, rfl, rfl, rfl, rfl, rfl, fun _ => rfl, rfl, ?_⟩
  cases e with
  | syncLoss | cksumMismatch =>
    cases Option.isNone_iff_eq_none.mp (Option.isSome_eq_false_iff.mp hf)
    exact ⟨fun _ => ⟨List.append_nil _, rfl, rfl⟩, nofun, nofun⟩
  | unknownId =>
    obtain ⟨f, rfl⟩ := Option.isSome_iff_exists.mp hf
    exact ⟨nofun, fun _ => ⟨⟨f, rfl, rfl⟩, rfl⟩, nofun⟩
  | layoutMismatch =>
    obtain ⟨f, rfl⟩ := Option.isSome_iff_exists.mp hf
    exact ⟨nofun, nofun, fun _ => ⟨⟨f, rfl, rfl⟩, rfl⟩⟩

end Sys2Proof.Machine

/-! SUPPORT. The run's record of events (R45, R134): what one operation appends to it. -/

namespace Sys2Proof.Machine

/-- Where no dispatch event stands yet, the dispatch stage appends to the record the dispatch event it makes, if it makes
one (R98, R134). -/
theorem State.dispatchFrame_events (f : Frame) {s : State} (hd : s.dispatchOut = none) :
    (s.dispatchFrame f).events = s.events ++ (s.dispatchFrame f).dispatchOut.toList.map .dispatch := by
  obtain ⟨-, h⟩ | ⟨_, _, -, -, -, h⟩ | ⟨_, -, -, -, h⟩ := State.dispatchFrame_cases f s
  · simp [h, hd]
  · simp [h]
  · simp [h, hd]

/-- A Decoder operation appends its frame event and then its dispatch event: D.CK.OK records the frame before its dispatch
stage runs, and the others have neither (R45, R96, R134). -/
theorem Ran.events_eq {s t : State} {i : Instr} (hr : Ran s i t) (hi : i.isDecoderOp = true) :
    t.events = s.events ++ t.frameOut.toList.map .frame ++ t.dispatchOut.toList.map .dispatch := by
  cases hr with
  | ckOk b buf =>
    rw [State.dispatchFrame_events _ rfl, State.dispatchFrame_frameOut]
    rfl
  | checksum | serialize | x121 | x122 | xUnknown => cases hi
  | _ => simp

/-- A step that takes a SERIALIZE call writes the output stream and nothing else (R90, R93). -/
theorem step_callSerialize_next {s t : State} {id : Byte} {payload : List Byte} {rest : List Presented}
    (hin : s.input = .callSerialize id payload :: rest) (h : step s = .next t) :
    t = s.consume.withSerialOut (wireFrame Config.dirReq id payload) := by
  obtain ⟨i, hdec, hexec⟩ := step_next h
  rw [State.nextPresented_of_input_cons hin] at hdec
  cases hdec
  exact (exec_serialize_next.mp hexec).2

/-- Settles O43: a command word runs a Decoder operation, which appends its two outputs in that order (`Ran.events_eq`); a
call writes the output stream alone. -/
theorem eventsAreTheOutputsInOrder : Obligations.EventsAreTheOutputsInOrder := by
  intro s t hstep
  constructor
  · intro c rest hin
    obtain ⟨i, hi, hr⟩ := step_command_ran hin hstep
    exact hr.events_eq hi
  · intro p rest hin hcall
    cases p with
    | command c => exact absurd rfl (hcall c)
    | callSerialize id payload =>
      rw [step_callSerialize_next hin hstep]
      rfl

end Sys2Proof.Machine
